-- ==== Sys2Proof/Word.lean ====
section
/-! DEFINITION. The word types of the block: bus words, bytes and bus word addresses
(00_scope.md R6, R9; 20_memory.md R50). -/

namespace Sys2Proof

/-- A 16-bit word: every bus register, command word and transport event word (R6, R70, R71). -/
abbrev Word := BitVec 16

/-- A byte, 0 to 255 (R9). -/
abbrev Byte := BitVec 8

/-- A 20-bit word address of the register bus (R50). -/
abbrev BusAddr := BitVec 20

end Sys2Proof
end

