-- ==== Sys2Proof/Syntax.lean ====
section
/-! DEFINITION. The instructions: one constructor for each row of spec/opcode_table.json, the eleven
commands of 30_encoding.md R73 and the four transport events of R74. -/

namespace Sys2Proof

/-- A command of the caller (format C, R70) or an event of the transport (format T, R71). -/
inductive Instr where
  /-- NOP: do nothing (44_control.md R200). -/
  | nop
  /-- CRCINIT: reset the CRC unit (40_crc.md R104). -/
  | crcinit
  /-- CRCBYTE b: feed one byte to the CRC unit (40_crc.md R105). -/
  | crcbyte (b : Byte)
  /-- STCLR: empty the staging buffer (42_encoder.md R150). -/
  | stclr
  /-- STBYTE b: append one byte to the staging buffer (42_encoder.md R152). -/
  | stbyte (b : Byte)
  /-- SEND: encode the staged request and start an exchange (42_encoder.md R153). -/
  | send
  /-- DECODE: extract once, with more bytes possible (41_extractor.md R140). -/
  | decode
  /-- DECODEF: extract once, with no more bytes possible (41_extractor.md R141). -/
  | decodef
  /-- SETCFG: choose the response CRC window; the whole IMM byte, of which bit 0 is the new WIN and
  bits [7:1] must be 0 (44_control.md R201, 30_encoding.md R72; log 12). -/
  | setcfg (imm : Byte)
  /-- CLRFLAGS: clear the sticky flags (44_control.md R202). -/
  | clrflags
  /-- RELEASE: take back the transport, forfeiting every buffered byte (44_control.md R203). -/
  | release
  /-- RXB d: the transport delivers a byte (43_accumulator.md R174, R175). -/
  | rxb (d : Byte)
  /-- RXEOS: the transport reports end of stream (43_accumulator.md R181). -/
  | rxeos
  /-- IOERR: the transport reports a failure (43_accumulator.md R182). -/
  | ioerr
  /-- TXTAKE: the transport takes the next request byte (43_accumulator.md R180). -/
  | txtake
  deriving DecidableEq, Repr

/-- The transport events of R74: these words come on the transport port, the others are written to CMD. -/
def Instr.isTransport : Instr → Bool
  | .nop | .crcinit | .crcbyte _ | .stclr | .stbyte _ | .send | .decode | .decodef
  | .setcfg _ | .clrflags | .release => false
  | .rxb _ | .rxeos | .ioerr | .txtake => true

end Sys2Proof
end

