-- ==== Sys2Proof/WellFormed.lean ====
section
/-! DEFINITION. Which instructions have a word (30_encoding.md R72, R73). The operand types leave one
check: SETCFG needs IMM[7:1] = 0. -/

namespace Sys2Proof

/-- An instruction that some legal word stands for. Every operand of the other rows uses all of its
bits, so that SETCFG's reserved bits are the one thing to check (R72, R75). -/
def Instr.wellFormed : Instr → Bool
  | .setcfg imm => imm &&& 0xFE#8 == 0#8
  | .nop | .crcinit | .crcbyte _ | .stclr | .stbyte _ | .send | .decode | .decodef
  | .clrflags | .release | .rxb _ | .rxeos | .ioerr | .txtake => true

end Sys2Proof
end

