-- ==== Sys2Proof/Decode.lean ====
section
/-! DEFINITION. Decoding a command word (30_encoding.md R73) and a transport word (R74), total on
every 16-bit word, and the encoder. The rows are the match / mask columns of R73 and R74. -/

namespace Sys2Proof

/-- One row of an opcode map: a word belongs to it when `word &&& mask = pattern`; `build` gives the
instruction from the low byte, IMM (R70) or DATA (R71). -/
structure OpcodeRow where
  pattern : Word
  mask : Word
  build : Byte → Instr

/-- The command opcode map (R73). -/
def commandRows : List OpcodeRow :=
  [ ⟨0x0000#16, 0xFFFF#16, fun _ => .nop⟩,
    ⟨0x0100#16, 0xFFFF#16, fun _ => .crcinit⟩,
    ⟨0x0200#16, 0xFF00#16, fun b => .crcbyte b⟩,
    ⟨0x1000#16, 0xFFFF#16, fun _ => .stclr⟩,
    ⟨0x1100#16, 0xFF00#16, fun b => .stbyte b⟩,
    ⟨0x1200#16, 0xFFFF#16, fun _ => .send⟩,
    ⟨0x2000#16, 0xFFFF#16, fun _ => .decode⟩,
    ⟨0x2100#16, 0xFFFF#16, fun _ => .decodef⟩,
    ⟨0x3000#16, 0xFFFE#16, fun b => .setcfg b⟩,
    ⟨0x3100#16, 0xFFFF#16, fun _ => .clrflags⟩,
    ⟨0x3F00#16, 0xFFFF#16, fun _ => .release⟩ ]

/-- The transport event map (R74). -/
def transportRows : List OpcodeRow :=
  [ ⟨0x8000#16, 0xFF00#16, fun b => .rxb b⟩,
    ⟨0x8100#16, 0xFFFF#16, fun _ => .rxeos⟩,
    ⟨0x8200#16, 0xFFFF#16, fun _ => .ioerr⟩,
    ⟨0x8300#16, 0xFFFF#16, fun _ => .txtake⟩ ]

/-- The low byte of a word: IMM of a command word, DATA of an event word (R70, R71). -/
def lowField (w : Word) : Byte := w.extractLsb' 0 8

/-- Find the row a word belongs to and build its instruction (R73: "find the row whose
`word & mask = match`"). -/
def lookupRow (rows : List OpcodeRow) (w : Word) : Option Instr :=
  match rows with
  | [] => none
  | r :: rest => if w &&& r.mask = r.pattern then some (r.build (lowField w)) else lookupRow rest w

/-- The command a word written to CMD stands for; `none` for a word that matches no row, which is
illegal (R73, R75). The phase condition is the meaning's (R77). -/
def decodeCommand (w : Word) : Option Instr := lookupRow commandRows w

/-- The event a word on the transport port stands for; `none` for a word that is no event (R74). -/
def decodeTransport (w : Word) : Option Instr := lookupRow transportRows w

/-- Decode in the uniform alphabet of R71: a word with bit 15 = 1 is read on the transport port, any
other is read as a command (R74; log 16). -/
def decodeWord (w : Word) : Option Instr :=
  if w.getLsbD 15 then decodeTransport w else decodeCommand w

/-- The word of a row with an operand byte in [7:0]. -/
def withOperand (pattern : Word) (b : Byte) : Word := pattern ||| b.setWidth 16

/-- The word of an instruction (R73, R74). -/
def encode : Instr → Word
  | .nop => 0x0000#16
  | .crcinit => 0x0100#16
  | .crcbyte b => withOperand 0x0200#16 b
  | .stclr => 0x1000#16
  | .stbyte b => withOperand 0x1100#16 b
  | .send => 0x1200#16
  | .decode => 0x2000#16
  | .decodef => 0x2100#16
  | .setcfg imm => withOperand 0x3000#16 imm
  | .clrflags => 0x3100#16
  | .release => 0x3F00#16
  | .rxb d => withOperand 0x8000#16 d
  | .rxeos => 0x8100#16
  | .ioerr => 0x8200#16
  | .txtake => 0x8300#16

/-- The instruction read from the `nbits` low bits of `w`, every higher bit of the word being 0; every
row of the table has 16 bits, and a longer number is no word of this block (R77). -/
def decodeTableWord (nbits w : Nat) : Option Instr :=
  if w % 2 ^ nbits < 2 ^ 16 then decodeWord (BitVec.ofNat 16 (w % 2 ^ nbits)) else none

end Sys2Proof
end

