-- ==== Sys2Proof/Config.lean ====
section
/-! DEFINITION. The implementation parameters that 00_scope.md R6 leaves OPEN (92_eei_decisions.md D8,
D9, D10). Each is a constant with no body, so no proof can learn its value; its type is the legal
range, so it is legal whatever it is. Log 1. -/

namespace Sys2Proof

/-- How far RX_CAP lies above its least legal value 8: RX_CAP = this + 8, from 8 to 65535
(R6; DESIGN CHOICE, log 1). -/
opaque Config.rxSlack : Fin 65528

/-- How far STAGE_CAP lies above its least legal value 1: STAGE_CAP = this + 1, from 1 to 65532
(R6; DESIGN CHOICE, log 1). -/
opaque Config.stageSlack : Fin 65532

/-- WIN_RESET, the reset value of CFG.WIN (R6, R24; DESIGN CHOICE, log 1). -/
opaque Config.winReset : Bool

end Sys2Proof
end

