-- ==== Sys2Proof/Machine/State.lean ====
section
/-! DEFINITION. The state of the block as plain data (10_state.md R22), the inputs the agents give it
(00_scope.md R13), the reasons a step can stop, and the state after reset (70_reset_and_hazards.md R250). -/

namespace Sys2Proof.Machine

/-- The implementation parameters of 00_scope.md R6. They are not state elements of the block: no step
changes them. `tx` and `pl` have the derived capacities `stageCap + 3` and `rxCap - 4` (log 1). -/
structure Params where
  /-- RX_CAP, legal from 8 to 65535. -/
  rxCap : Nat
  /-- STAGE_CAP, legal from 1 to 65532. -/
  stageCap : Nat
  /-- WIN_RESET. -/
  winReset : Bool
  deriving DecidableEq, Repr

/-- The sequencer phase (R27). Value 3 is never taken, so it has no constructor (log 9). -/
inductive Phase where
  /-- IDLE (0): no exchange is in progress. -/
  | idle
  /-- TX (1): the transport is taking the request's bytes. -/
  | tx
  /-- AWAIT (2): the request is written; every received byte is followed by an extraction. -/
  | await
  deriving DecidableEq, Repr

/-- The result codes of STATUS.RES (R30, 60_exceptions.md R221). -/
inductive ResCode where
  | none | incomplete | frame | errFraming | errCrc | errEof | errIo | errOvf
  deriving DecidableEq, Repr

/-- One input of one agent (R13). The caller writes and reads bus words, the transport gives an event
word, the reset agent resets. -/
inductive Input where
  /-- The caller writes `v` at bus address `a` (20_memory.md R54). -/
  | write (a : BusAddr) (v : Word)
  /-- The caller reads bus address `a` (R52, R55). -/
  | read (a : BusAddr)
  /-- The transport gives the event word `w` (30_encoding.md R71, R74). -/
  | port (w : Word)
  /-- The reset input (R250). -/
  | reset
  deriving DecidableEq, Repr

/-- The agents of R13. -/
inductive Agent where
  | caller | transport | reset
  deriving DecidableEq, Repr

/-- Every step belongs to exactly one agent (R13). -/
def Input.agent : Input → Agent
  | .write _ _ => .caller
  | .read _ => .caller
  | .port _ => .transport
  | .reset => .reset

/-- The state: the fifteen elements of R22, then four fields of the model's own (logs 1, 2, 3). -/
structure State where
  /-- The CRC unit's accumulator (R23). -/
  crc : Word
  /-- CFG.WIN, the response CRC window convention (R24). -/
  win : Bool
  /-- The staging buffer (R25). -/
  stage : List Byte
  /-- The transmit FIFO, its front first (R26). -/
  tx : List Byte
  /-- The accumulation buffer, its oldest byte first (R28). -/
  rx : List Byte
  /-- The payload of the last frame extracted (R29). -/
  pl : List Byte
  /-- The sequencer phase (R27). -/
  phase : Phase
  /-- The result code (R30). -/
  res : ResCode
  /-- End of stream seen (R31). -/
  eos : Bool
  /-- Receive overflow, sticky (R32). -/
  ovf : Bool
  /-- Staging overflow, sticky (R33). -/
  sovf : Bool
  /-- Illegal command or bus write, sticky (R34). -/
  ill : Bool
  /-- The candidate index of the last frame accepted (R35). -/
  cand : BitVec 2
  /-- Bytes removed by the last extraction or overflow (R36). -/
  consumed : Word
  /-- The discard length of the last extraction (R37). -/
  skip : Word
  /-- The model's own: the implementation parameters (R6; log 1). -/
  params : Params
  /-- The model's own: the inputs not yet taken, the next one first (R60; log 2). -/
  pending : List Input
  /-- The model's own: the bytes `emit` handed to the transport, the first one first (R11, R264; log 3). -/
  emitted : List Byte
  /-- The model's own: the words bus reads answered, the first one first (R51, R204; log 3). -/
  answers : List Word
  deriving DecidableEq, Repr

/-- Why a step has no next state. Each stands for a move that R172 or R74 says does not exist. -/
inductive Fault where
  /-- An RXB while `eos = 1`: "after end of stream it has no RXB move" (43_accumulator.md R172; U9).
  Raised by RXB. Unsafe if a real link delivers bytes after end of stream, as U9 says (log 4). -/
  | rxbAfterEos
  /-- A TXTAKE while `tx = []`: "the transport has no TXTAKE move while `tx = []`" (R172). Raised by
  TXTAKE. Safe (log 4). -/
  | txtakeWhileTxEmpty
  /-- A word on the transport port that matches no row of R74: "not an event: the transport cannot
  produce it". Raised when the port's word is read. Safe (log 5). -/
  | notATransportEvent
  deriving DecidableEq, Repr

/-- Why a step has no meaning. No step of this model answers it. -/
inductive Refusal where
  /-- An instruction with no meaning yet, by its mnemonic; raised by no arm. Safe. -/
  | notModelled (mnemonic : String)
  deriving DecidableEq, Repr

/-- This machine's parameters: the open constants of Config, legal by their types (R6; log 1). -/
def Params.ofConfig : Params where
  rxCap := Config.rxSlack.val + 8
  stageCap := Config.stageSlack.val + 1
  winReset := Config.winReset

/-- Right after reset with parameters `p` (R250): every element empty or 0, phase IDLE, RES NONE,
`win = WIN_RESET`; nothing pending and nothing put out yet. -/
def State.powerOn (p : Params) : State where
  crc := 0x0000#16
  win := p.winReset
  stage := []
  tx := []
  rx := []
  pl := []
  phase := .idle
  res := .none
  eos := false
  ovf := false
  sovf := false
  ill := false
  cand := 0#2
  consumed := 0#16
  skip := 0#16
  params := p
  pending := []
  emitted := []
  answers := []

/-- The machine right after reset (R250), with this machine's parameters. -/
def State.reset : State := State.powerOn Params.ofConfig

end Sys2Proof.Machine
end

