-- ==== Sys2Proof/Machine/Operands.lean ====
section
/-! DEFINITION. Operand assembly (30_encoding.md R72), byte order on the wire (20_memory.md R56), the
framing constants (00_scope.md R7) and the byte-sequence notation of R10. -/

namespace Sys2Proof.Machine

/-- STOP, ASCII carriage return (R7). -/
def stopByte : Byte := 0x0D#8

/-- START, ASCII `(` (R7). -/
def startByte : Byte := 0x28#8

/-- `c[15:8]`, the byte of a CRC sent first (R56). -/
def highByte (c : Word) : Byte := c.extractLsb' 8 8

/-- `c[7:0]`, the byte of a CRC sent second (R56). -/
def lowByte (c : Word) : Byte := c.extractLsb' 0 8

/-- The word stored in two bytes, most significant first: `(zext_16(hi) << 8) | zext_16(lo)`
(R56, 40_crc.md R106). -/
def bigEndian (hi lo : Byte) : Word := (hi.setWidth 16 <<< 8) ||| lo.setWidth 16

/-- SETCFG's IMM[0], the new WIN (R72, 44_control.md R201). -/
def setcfgWin (imm : Byte) : Bool := imm.getLsbD 0

/-- SETCFG's condition IMM[7:1] = 0 (R72, R201). -/
def setcfgReservedZero (imm : Byte) : Bool := imm.extractLsb' 1 7 == 0#7

/-- `first(b, v)`: the least index of `v` in `b`, or none (R10). -/
def first : List Byte → Byte → Option Nat
  | [], _ => none
  | x :: rest, v => if x = v then some 0 else (first rest v).map (· + 1)

/-- `b[i..j]`: the bytes `i` to `j` inclusive, empty when `j < i` (R10). -/
def slice (b : List Byte) (i j : Nat) : List Byte := (b.take (j + 1)).drop i

/-- `b[i]` where the rules read it inside the sequence (R10); 0 past the end, where no rule reads. -/
def byteAt (b : List Byte) (i : Nat) : Byte := b.getD i 0#8

end Sys2Proof.Machine
end

