-- ==== Sys2Proof/Machine/Crc.lean ====
section
/-! DEFINITION. CRC-16/XMODEM (40_crc.md R100 to R106) and the two frame formats built on it
(42_encoder.md R151, R154). -/

namespace Sys2Proof.Machine

/-- The polynomial's coefficients below x^16 (R8, R100). -/
def crcPoly : Word := 0x1021#16

/-- One of the eight shifts of a CRC step (R101). -/
def crcShift (v : Word) : Word :=
  if v.getLsbD 15 then (v <<< 1) ^^^ crcPoly else v <<< 1

/-- `n` shifts (R101: "repeat 8 times"). -/
def crcShifts : Nat → Word → Word
  | 0, v => v
  | n + 1, v => crcShifts n (crcShift v)

/-- `crc_step(c, b)` (R101). -/
def crcStep (c : Word) (b : Byte) : Word := crcShifts 8 (c ^^^ (b.setWidth 16 <<< 8))

/-- The CRC accumulated over `d` from the value `c`. -/
def crcFrom (c : Word) : List Byte → Word
  | [] => c
  | b :: rest => crcFrom (crcStep c b) rest

/-- `crc16(d)`: initial value 0, one step a byte, no final XOR (R102, R103). -/
def crc16 (d : List Byte) : Word := crcFrom 0x0000#16 d

/-- `crc_ok(window, hi, lo)` (R106). -/
def crcOk (window : List Byte) (hi lo : Byte) : Bool := crc16 window == bigEndian hi lo

/-- `frame_req(d)`: the staged bytes, their CRC big-endian, the stop byte (R151). -/
def frameReq (d : List Byte) : List Byte :=
  d ++ [highByte (crc16 d), lowByte (crc16 d), stopByte]

/-- The CRC window of a response with payload `p` under convention `w` (R154, R127). -/
def responseWindow (p : List Byte) (w : Bool) : List Byte := if w then startByte :: p else p

/-- `frame_rsp(p, w)` (R154); the block never sends one. -/
def frameRsp (p : List Byte) (w : Bool) : List Byte :=
  startByte :: p ++
    [highByte (crc16 (responseWindow p w)), lowByte (crc16 (responseWindow p w)), stopByte]

end Sys2Proof.Machine
end

