-- ==== Sys2Proof/Machine/Extractor.lean ====
section
/-! DEFINITION. The extraction function of 41_extractor.md R120 to R131, a pure function of the
buffer, the final bit and the window convention. -/

namespace Sys2Proof.Machine

/-- The four outcomes (R121). -/
inductive ExtractOut where
  | incomplete | frame | errFraming | errCrc
  deriving DecidableEq, Repr

/-- The tuple `(out, n, pay, k, i)` (R120). -/
structure Extraction where
  /-- The outcome. -/
  out : ExtractOut
  /-- Bytes to remove from the front. -/
  n : Nat
  /-- The payload, of a FRAME only. -/
  pay : List Byte
  /-- The resync discard length. -/
  k : Nat
  /-- The candidate index. -/
  i : Nat
  deriving DecidableEq, Repr

/-- "no complete frame yet", nothing consumed (R121). -/
def Extraction.incomplete : Extraction := ⟨.incomplete, 0, [], 0, 0⟩

/-- ERR_FRAMING through the first stop byte, at `p` (R126). -/
def Extraction.framingError (p : Nat) : Extraction := ⟨.errFraming, p + 1, [], 0, 0⟩

/-- ERR_CRC that removes `n` bytes, with the discard length `s` (R134). -/
def Extraction.crcError (n s : Nat) : Extraction := ⟨.errCrc, n, [], s, 0⟩

/-- FRAME with start byte at `s`, stop byte at `q`, accepted at candidate `i` (R131). -/
def Extraction.accept (b : List Byte) (s q i : Nat) : Extraction :=
  ⟨.frame, q + 1, slice b (s + 1) (q - 3), s, i⟩

/-- The CRC window of the candidate ending at `q`: from `s` when `w = 1`, from `s + 1` when `w = 0`,
to `q - 3` (R127). -/
def candidateWindow (b : List Byte) (w : Bool) (s q : Nat) : List Byte :=
  slice b (if w then s else s + 1) (q - 3)

/-- Conditions 3 and 4 of a candidate whose stop byte is at `q`: room for the start byte and two CRC
bytes, and a matching CRC (R129). -/
def candidatePasses (b : List Byte) (w : Bool) (s q : Nat) : Bool :=
  3 ≤ q - s && crcOk (candidateWindow b w s q) (byteAt b (q - 2)) (byteAt b (q - 1))

/-- A probe past the end of the buffer (R130). -/
def probePastEnd (b : List Byte) (final : Bool) (s : Nat) : Extraction :=
  if final then Extraction.crcError b.length s else Extraction.incomplete

/-- The candidates still to try, in order; `last` is the last stop byte examined (R123 step 4,
R128, R134). -/
def probe (b : List Byte) (final w : Bool) (s p : Nat) : List Nat → Nat → Extraction
  | [], last => Extraction.crcError (last + 1) s
  | i :: rest, last =>
    if b.length ≤ p + i then probePastEnd b final s
    else if byteAt b (p + i) = stopByte then
      if candidatePasses b w s (p + i) then Extraction.accept b s (p + i) i
      else probe b final w s p rest (p + i)
    else probe b final w s p rest last

/-- `extract(b, final, w)` (R123): the first stop byte, the first start byte before it, then the three
candidates. -/
def extract (b : List Byte) (final w : Bool) : Extraction :=
  match first b stopByte with
  | none => Extraction.incomplete
  | some p =>
    match first (b.take p) startByte with
    | none => Extraction.framingError p
    | some s => probe b final w s p [0, 1, 2] p

end Sys2Proof.Machine
end

