-- ==== Sys2Proof/Machine/Flags.lean ====
section
/-! DEFINITION. The numbers of the phases and result codes, the STATUS and CFG words (10_state.md R30,
R38), and the one computation of every sticky flag (R32 to R34). -/

namespace Sys2Proof.Machine

/-- STATUS.PHASE (R27, R30). -/
def Phase.code : Phase → BitVec 2
  | .idle => 0#2
  | .tx => 1#2
  | .await => 2#2

/-- STATUS.RES (R30, 60_exceptions.md R221). -/
def ResCode.code : ResCode → BitVec 3
  | .none => 0#3
  | .incomplete => 1#3
  | .frame => 2#3
  | .errFraming => 3#3
  | .errCrc => 4#3
  | .errEof => 5#3
  | .errIo => 6#3
  | .errOvf => 7#3

/-- The result code of an extraction outcome (41_extractor.md R132). -/
def ExtractOut.resCode : ExtractOut → ResCode
  | .incomplete => .incomplete
  | .frame => .frame
  | .errFraming => .errFraming
  | .errCrc => .errCrc

/-- A flag as a word with bit 0. -/
def flagWord (f : Bool) : Word := (BitVec.ofBool f).setWidth 16

/-- STATUS = res | phase << 3 | eos << 5 | ovf << 6 | sovf << 7 | ill << 8 | cand << 9 (R30). -/
def statusWord (s : State) : Word :=
  s.res.code.setWidth 16 ||| (s.phase.code.setWidth 16 <<< 3) ||| (flagWord s.eos <<< 5) |||
    (flagWord s.ovf <<< 6) ||| (flagWord s.sovf <<< 7) ||| (flagWord s.ill <<< 8) |||
    (s.cand.setWidth 16 <<< 9)

/-- CFG: bit 0 is WIN, the rest reads 0 (R38). -/
def cfgWord (s : State) : Word := flagWord s.win

/-- A length register: 16 bits (R39; log 10). -/
def lengthWord (b : List Byte) : Word := BitVec.ofNat 16 b.length

/-- SOVF set, the byte dropped (R33, 42_encoder.md R152). -/
def markStageOverflow (s : State) : State := { s with sovf := true }

/-- OVF, SOVF and ILL cleared (44_control.md R202). -/
def clearStickyFlags (s : State) : State := { s with ovf := false, sovf := false, ill := false }

/-- EOS set (R31, 43_accumulator.md R181). -/
def markEndOfStream (s : State) : State := { s with eos := true }

end Sys2Proof.Machine
end

