-- ==== Sys2Proof/Machine/Ops.lean ====
section
/-! DEFINITION. The named operations over the state that the meanings share. The spec has no trap
(60_exceptions.md R220, R228): what it has in the place of an exception is `raise ILL()`, here
`raiseIll`, and there is no return from one (R229). -/

namespace Sys2Proof.Machine

/-- `raise ILL()`: ILL set and nothing else (R224, 00_scope.md R11). -/
def raiseIll (s : State) : State := { s with ill := true }

/-- Act when a command's condition holds, else raise ILL once (R225). -/
def actOrIll (legal : Bool) (act : State → State) (s : State) : State :=
  if legal then act s else raiseIll s

/-- The condition of SEND, DECODE, DECODEF and SETCFG (30_encoding.md R73). -/
def isIdle (s : State) : Bool := s.phase == .idle

/-- An exchange ends with a result (43_accumulator.md R190): `res <- c; phase <- IDLE`. -/
def endExchange (c : ResCode) (s : State) : State := { s with res := c, phase := .idle }

/-- `emit(b)` and removal of the front byte of `tx` (00_scope.md R11, 43_accumulator.md R180). -/
def emitFront (b : Byte) (rest : List Byte) (s : State) : State :=
  { s with tx := rest, emitted := s.emitted ++ [b] }

/-- `rx <- rx ++ [d]` (43_accumulator.md R174). -/
def storeReceived (d : Byte) (s : State) : State := { s with rx := s.rx ++ [d] }

/-- `stage <- stage ++ [b]` (42_encoder.md R152). -/
def storeStaged (b : Byte) (s : State) : State := { s with stage := s.stage ++ [b] }

/-- `win <- w` (44_control.md R201, 10_state.md R24). -/
def setWindow (w : Bool) (s : State) : State := { s with win := w }

/-- `crc <- c` (10_state.md R23). -/
def setCrc (c : Word) (s : State) : State := { s with crc := c }

/-- `stage <- []` (42_encoder.md R150). -/
def clearStage (s : State) : State := { s with stage := [] }

/-- `pl <- []` (41_extractor.md R140, R141). -/
def dropPayload (s : State) : State := { s with pl := [] }

/-- `apply(out, n, pay, k, i)`, the one write path of every extraction (41_extractor.md R132). -/
def applyExtraction (r : Extraction) (s : State) : State :=
  { s with
    res := r.out.resCode
    consumed := BitVec.ofNat 16 r.n
    skip := BitVec.ofNat 16 r.k
    cand := BitVec.ofNat 2 r.i
    rx := s.rx.drop r.n
    pl := if r.out = .frame then r.pay else s.pl }

/-- DECODE and DECODEF's action: `pl <- []`, then one extraction applied (R140, R141). -/
def extractOnce (final : Bool) (s : State) : State :=
  applyExtraction (extract s.rx final s.win) (dropPayload s)

/-- The sequencer's automatic extraction in AWAIT: non-final, and an outcome other than INCOMPLETE
ends the exchange (43_accumulator.md R174, R176). -/
def autoExtract (s : State) : State :=
  if (extract s.rx false s.win).out = .incomplete then
    applyExtraction (extract s.rx false s.win) s
  else
    { applyExtraction (extract s.rx false s.win) s with phase := .idle }

/-- The discard of an overflow: every buffered byte, with OVF set (43_accumulator.md R175). R175 is
followed in IDLE too, where R260 says otherwise (DEDUCED, log 6). -/
def discardReceived (s : State) : State :=
  { s with
    consumed := lengthWord s.rx
    skip := 0#16
    cand := 0#2
    rx := []
    ovf := true }

/-- `overflow()` (R175): in AWAIT it also ends the exchange with ERR_OVF. In IDLE and TX it writes
CONSUMED, SKIP and CAND as R175 says (log 6). -/
def overflow (s : State) : State :=
  if s.phase = .await then endExchange .errOvf (discardReceived s) else discardReceived s

/-- A received byte (R174, R175): overflow when `rx` is full, else store and, in AWAIT, extract. -/
def receive (d : Byte) (s : State) : State :=
  if s.rx.length = s.params.rxCap then overflow s
  else if s.phase = .await then autoExtract (storeReceived d s)
  else storeReceived d s

/-- SEND's action (42_encoder.md R153). -/
def startExchange (s : State) : State :=
  { s with
    tx := frameReq s.stage
    phase := .tx
    res := .none
    pl := []
    consumed := 0#16
    skip := 0#16
    cand := 0#2 }

/-- After a byte was taken (43_accumulator.md R180): when `tx` is empty the request is written in
full, and the exchange waits, or ends with ERR_EOF when end of stream was seen. -/
def afterTake (s : State) : State :=
  if s.tx = [] then
    if s.eos then endExchange .errEof s else { s with phase := .await }
  else s

/-- IOERR's action inside an exchange (43_accumulator.md R182). -/
def abandonExchange (s : State) : State := endExchange .errIo { s with tx := [] }

/-- RELEASE's action (44_control.md R203). -/
def forfeit (s : State) : State :=
  { s with
    rx := []
    tx := []
    pl := []
    phase := .idle
    res := .none
    eos := false
    consumed := 0#16
    skip := 0#16
    cand := 0#2 }

/-- `reset()`, the event of the reset agent (70_reset_and_hazards.md R250): every element of R22. What
is outside the block stays: the parameters, the inputs to come, what was put out (log 8). -/
def resetBlock (s : State) : State :=
  { s with
    crc := 0x0000#16
    win := s.params.winReset
    stage := []
    tx := []
    rx := []
    pl := []
    phase := .idle
    res := .none
    eos := false
    ovf := false
    sovf := false
    ill := false
    cand := 0#2
    consumed := 0#16
    skip := 0#16 }

end Sys2Proof.Machine
end

