-- ==== Sys2Proof/Machine/Bus.lean ====
section
/-! DEFINITION. What a bus read returns: the register map (20_memory.md R52) and the buffer windows
(R53). -/

namespace Sys2Proof.Machine

/-- The registers at 0x00000 to 0x00009; every higher address of the page is reserved and reads 0
(R52). -/
def readRegister (s : State) : Nat → Word
  | 0 => 0x0000#16
  | 1 => statusWord s
  | 2 => cfgWord s
  | 3 => s.crc
  | 4 => lengthWord s.rx
  | 5 => lengthWord s.tx
  | 6 => lengthWord s.stage
  | 7 => lengthWord s.pl
  | 8 => s.consumed
  | 9 => s.skip
  | _ => 0x0000#16

/-- Word `i` of a window: byte `i` zero-extended, 0 at or past the buffer's length (R53). -/
def windowWord (b : List Byte) (i : Nat) : Word :=
  match b[i]? with
  | some v => v.setWidth 16
  | none => 0x0000#16

/-- `MemRead(a, 2)` (R52, R53): pages 1 to 4 are the windows of `pl`, `rx`, `stage` and `tx`, pages 5
to 15 are reserved. -/
def busRead (s : State) (a : BusAddr) : Word :=
  match (a.extractLsb' 16 4).toNat with
  | 0 => readRegister s (a.extractLsb' 0 16).toNat
  | 1 => windowWord s.pl (a.extractLsb' 0 16).toNat
  | 2 => windowWord s.rx (a.extractLsb' 0 16).toNat
  | 3 => windowWord s.stage (a.extractLsb' 0 16).toNat
  | 4 => windowWord s.tx (a.extractLsb' 0 16).toNat
  | _ => 0x0000#16

/-- The caller's read of `a` as a step: its word is answered, and no element changes (R55; log 3). -/
def answerRead (a : BusAddr) (s : State) : State := { s with answers := s.answers ++ [busRead s a] }

end Sys2Proof.Machine
end

