-- ==== Sys2Proof/Machine/Control.lean ====
section
/-! DEFINITION. The control commands (44_control.md R200 to R203). -/

namespace Sys2Proof.Machine

/-- NOP (R200): no state changes. -/
def execNop (s : State) : Host.Outcome State Fault Refusal := .next s

/-- SETCFG (R201): in IDLE with IMM[7:1] = 0, `win <- IMM[0]`; otherwise ILL. -/
def execSetcfg (imm : Byte) (s : State) : Host.Outcome State Fault Refusal :=
  .next (actOrIll (isIdle s && setcfgReservedZero imm) (setWindow (setcfgWin imm)) s)

/-- CLRFLAGS (R202): OVF, SOVF and ILL cleared; EOS is not. -/
def execClrflags (s : State) : Host.Outcome State Fault Refusal := .next (clearStickyFlags s)

/-- RELEASE (R203): every buffered byte forfeited, in any phase. -/
def execRelease (s : State) : Host.Outcome State Fault Refusal := .next (forfeit s)

end Sys2Proof.Machine
end

