-- ==== Sys2Proof/Machine/CrcUnit.lean ====
section
/-! DEFINITION. The commands of the CRC unit (40_crc.md R104, R105). -/

namespace Sys2Proof.Machine

/-- CRCINIT (R104): `crc <- 0x0000`. -/
def execCrcinit (s : State) : Host.Outcome State Fault Refusal :=
  .next (setCrc 0x0000#16 s)

/-- CRCBYTE b (R105): `crc <- crc_step(crc, b)`. -/
def execCrcbyte (b : Byte) (s : State) : Host.Outcome State Fault Refusal :=
  .next (setCrc (crcStep s.crc b) s)

end Sys2Proof.Machine
end

