-- ==== Sys2Proof/Machine/Encoder.lean ====
section
/-! DEFINITION. The commands of the request-frame encoder (42_encoder.md R150, R152, R153). -/

namespace Sys2Proof.Machine

/-- STCLR (R150): `stage <- []`; SOVF is not cleared. -/
def execStclr (s : State) : Host.Outcome State Fault Refusal :=
  .next (clearStage s)

/-- STBYTE b (R152): append, or set SOVF and drop the byte when `stage` is full. -/
def execStbyte (b : Byte) (s : State) : Host.Outcome State Fault Refusal :=
  .next (if s.stage.length = s.params.stageCap then markStageOverflow s else storeStaged b s)

/-- SEND (R153): in IDLE the request goes to `tx` and an exchange starts; otherwise ILL. -/
def execSend (s : State) : Host.Outcome State Fault Refusal :=
  .next (actOrIll (isIdle s) startExchange s)

end Sys2Proof.Machine
end

