-- ==== Sys2Proof/Machine/ExtractCommands.lean ====
section
/-! DEFINITION. The commands of the extractor (41_extractor.md R140, R141). -/

namespace Sys2Proof.Machine

/-- DECODE (R140): in IDLE one extraction with more bytes possible; otherwise ILL. -/
def execDecode (s : State) : Host.Outcome State Fault Refusal :=
  .next (actOrIll (isIdle s) (extractOnce false) s)

/-- DECODEF (R141): in IDLE one extraction in final mode; otherwise ILL. -/
def execDecodef (s : State) : Host.Outcome State Fault Refusal :=
  .next (actOrIll (isIdle s) (extractOnce true) s)

end Sys2Proof.Machine
end

