-- ==== Sys2Proof/Machine/Transport.lean ====
section
/-! DEFINITION. The transport events (43_accumulator.md R174 to R182). -/

namespace Sys2Proof.Machine

/-- RXB d (R174, R175), enabled while `eos = 0`; with `eos = 1` the transport has no such move
(R172; log 4). -/
def execRxb (d : Byte) (s : State) : Host.Outcome State Fault Refusal :=
  if s.eos then .fault .rxbAfterEos else .next (receive d s)

/-- RXEOS (R181): EOS set; in AWAIT the exchange ends with ERR_EOF. -/
def execRxeos (s : State) : Host.Outcome State Fault Refusal :=
  .next (if s.phase = .await then endExchange .errEof (markEndOfStream s) else markEndOfStream s)

/-- IOERR (R182): in TX or AWAIT the exchange ends with ERR_IO; in IDLE no effect. -/
def execIoerr (s : State) : Host.Outcome State Fault Refusal :=
  .next (if s.phase = .tx ∨ s.phase = .await then abandonExchange s else s)

/-- TXTAKE (R180), enabled while `tx` is not empty (R172; log 4): the front byte is emitted. -/
def execTxtake (s : State) : Host.Outcome State Fault Refusal :=
  match s.tx with
  | [] => .fault .txtakeWhileTxEmpty
  | b :: rest => .next (afterTake (emitFront b rest s))

end Sys2Proof.Machine
end

