-- ==== Sys2Proof/Machine/Dispatch.lean ====
section
/-! DEFINITION. One arm for each instruction, each a direct call of its meaning. -/

namespace Sys2Proof.Machine

def exec (i : Instr) (s : State) : Host.Outcome State Fault Refusal :=
  match i with
  | .nop => Sys2Proof.Machine.execNop s
  | .crcinit => Sys2Proof.Machine.execCrcinit s
  | .crcbyte b => Sys2Proof.Machine.execCrcbyte b s
  | .stclr => Sys2Proof.Machine.execStclr s
  | .stbyte b => Sys2Proof.Machine.execStbyte b s
  | .send => Sys2Proof.Machine.execSend s
  | .decode => Sys2Proof.Machine.execDecode s
  | .decodef => Sys2Proof.Machine.execDecodef s
  | .setcfg imm => Sys2Proof.Machine.execSetcfg imm s
  | .clrflags => Sys2Proof.Machine.execClrflags s
  | .release => Sys2Proof.Machine.execRelease s
  | .rxb d => Sys2Proof.Machine.execRxb d s
  | .rxeos => Sys2Proof.Machine.execRxeos s
  | .ioerr => Sys2Proof.Machine.execIoerr s
  | .txtake => Sys2Proof.Machine.execTxtake s

end Sys2Proof.Machine
end

