-- ==== Sys2Proof/Machine/Ports.lean ====
section
/-! DEFINITION. The two ports and the reset input: how one input of one agent acts on the block
(20_memory.md R54, R55; 30_encoding.md R73, R74; 70_reset_and_hazards.md R250), and how the next input
is taken. -/

namespace Sys2Proof.Machine

/-- The bus address of CMD (R52). -/
def cmdAddr : BusAddr := 0x00000#20

/-- A word written to CMD is performed as the command it carries; a word that matches no row raises
ILL (R54, R73, R75). -/
def performCommand (w : Word) (s : State) : Host.Outcome State Fault Refusal :=
  match decodeCommand w with
  | some i => exec i s
  | none => .next (raiseIll s)

/-- A bus write: a command at CMD, an illegal bus write anywhere else (R54, R224). -/
def busWrite (a : BusAddr) (v : Word) (s : State) : Host.Outcome State Fault Refusal :=
  if a = cmdAddr then performCommand v s else .next (raiseIll s)

/-- A word on the transport port; a word that is no event has no step (R74; log 5). -/
def performTransport (w : Word) (s : State) : Host.Outcome State Fault Refusal :=
  match decodeTransport w with
  | some i => exec i s
  | none => .fault .notATransportEvent

/-- One input of one agent, as one atomic step (R60). -/
def deliver (inp : Input) (s : State) : Host.Outcome State Fault Refusal :=
  match inp with
  | .write a v => busWrite a v s
  | .read a => .next (answerRead a s)
  | .port w => performTransport w s
  | .reset => .next (resetBlock s)

/-- The next input and the state with it removed from the list; none when no agent moves (log 2). -/
def takeInput (s : State) : Option (Input × State) :=
  match s.pending with
  | [] => none
  | inp :: rest => some (inp, { s with pending := rest })

/-- The input that carries a word of the opcode table: bit 15 = 1 comes on the transport port, any
other word is written to CMD (R71, R74; log 16). -/
def inputOfWord (w : Word) : Input := if w.getLsbD 15 then .port w else .write cmdAddr w

/-- An input put in front of those to come. -/
def pushInput (inp : Input) (s : State) : State := { s with pending := inp :: s.pending }

/-- The word of `nbits` bits that a table row's number stands for, every higher bit being 0. -/
def tableWord (nbits w : Nat) : Word := BitVec.ofNat 16 (w % 2 ^ nbits)

end Sys2Proof.Machine
end

