-- ==== Sys2Proof/Machine/Step.lean ====
section
/-! DEFINITION. One step: the next input is taken and acts on the block (20_memory.md R60). With no
input the block does nothing: "it acts only in response to an event" (00_scope.md R13; log 2). -/

namespace Sys2Proof.Machine

/-- One step of the machine (R60, R13). -/
def step (s : State) : Host.Outcome State Fault Refusal :=
  match takeInput s with
  | none => .next s
  | some (inp, s') => deliver inp s'

/-- `s` with a word of the opcode table as the next input, on the port that carries it. -/
def State.withFetchWord (s : State) (nbits w : Nat) : State :=
  pushInput (inputOfWord (tableWord nbits w)) s

end Sys2Proof.Machine
end

