-- ==== Sys2Proof/Machine/ResyncFsm.lean ====
section
/-! DEFINITION. The resynchronization state machine of 41_extractor.md R133, the table's form of the
extractor. No step of the block uses it; a statement says that it gives what `extract` gives. -/

namespace Sys2Proof.Machine

/-- The states of R133's table. `last` is the last stop byte examined, `s` the start byte, `p` the
first stop byte. -/
inductive FsmState where
  | scan
  | sync (p : Nat)
  | probing (i last s p : Nat)
  | next (i last s p : Nat)
  | exit (r : Extraction)
  deriving DecidableEq, Repr

/-- One row of R133's table. -/
def fsmStep (b : List Byte) (final w : Bool) : FsmState → FsmState
  | .scan =>
    match first b stopByte with
    | none => .exit ⟨.incomplete, 0, [], 0, 0⟩
    | some p => .sync p
  | .sync p =>
    match first (b.take p) startByte with
    | none => .exit ⟨.errFraming, p + 1, [], 0, 0⟩
    | some s => .probing 0 p s p
  | .probing i last s p =>
    if b.length ≤ p + i then
      if final then .exit ⟨.errCrc, b.length, [], s, 0⟩ else .exit ⟨.incomplete, 0, [], 0, 0⟩
    else if byteAt b (p + i) ≠ stopByte then .next i last s p
    else if p + i - s < 3 then .next i (p + i) s p
    else if crcOk (candidateWindow b w s (p + i)) (byteAt b (p + i - 2)) (byteAt b (p + i - 1)) then
      .exit ⟨.frame, p + i + 1, slice b (s + 1) (p + i - 3), s, i⟩
    else .next i (p + i) s p
  | .next i last s p =>
    if i < 2 then .probing (i + 1) last s p else .exit ⟨.errCrc, last + 1, [], s, 0⟩
  | .exit r => .exit r

/-- `n` transitions. -/
def fsmRun (b : List Byte) (final w : Bool) : Nat → FsmState → FsmState
  | 0, q => q
  | n + 1, q => fsmRun b final w n (fsmStep b final w q)

end Sys2Proof.Machine
end

