-- ==== Sys2Proof/Safety.lean ====
section
/-! DEFINITION. What claims about runs speak of: which moves exist (43_accumulator.md R172), the
facts of every reachable state (10_state.md R40), the clean-entry state
(70_reset_and_hazards.md R253), the end of a run and the observation at it (R264). -/

namespace Sys2Proof.Machine

/-- The legal values of the parameters (00_scope.md R6). -/
abbrev Params.Legal (p : Params) : Prop :=
  (8 ≤ p.rxCap ∧ p.rxCap ≤ 65535) ∧ (1 ≤ p.stageCap ∧ p.stageCap ≤ 65532)

/-- The agent has the move `inp` in `s` (30_encoding.md R74, R172): the caller and the reset input may
always act; the transport's word is an event whose "enabled when" condition holds. -/
def Input.enabled (inp : Input) (s : State) : Bool :=
  match inp with
  | .write _ _ => true
  | .read _ => true
  | .reset => true
  | .port w =>
    match decodeTransport w with
    | some (.rxb _) => !s.eos
    | some .txtake => !s.tx.isEmpty
    | some _ => true
    | none => false

/-- (I1) to (I5) of 10_state.md R40; `phase ≠ 3` holds by the type of `phase` (log 9). -/
abbrev State.ReachableFacts (s : State) : Prop :=
  (s.phase = .tx ↔ s.tx ≠ []) ∧
  (s.rx.length ≤ s.params.rxCap ∧ s.stage.length ≤ s.params.stageCap ∧
    s.tx.length ≤ s.params.stageCap + 3) ∧
  (s.pl ≠ [] → s.res = .frame) ∧
  (s.phase = .await → s.eos = false) ∧
  s.phase.code ≠ 3#2 ∧ s.cand ≠ 3#2

/-- During an exchange no result stands yet: `pl` is empty and RES is NONE or INCOMPLETE
(43_accumulator.md R190, R191; log 15). -/
abbrev State.NoResultInExchange (s : State) : Prop :=
  s.phase ≠ .idle → s.pl = [] ∧ (s.res = .none ∨ s.res = .incomplete)

/-- The invariant of the machine: legal parameters, R40, the bounds of `pl`, CONSUMED and SKIP (R22,
R36, 40_crc.md R110), and no result inside an exchange (log 15). -/
abbrev State.Inv (s : State) : Prop :=
  s.params.Legal ∧ s.ReachableFacts ∧ s.NoResultInExchange ∧
  s.pl.length + 4 ≤ s.params.rxCap ∧
  s.consumed.toNat ≤ s.params.rxCap ∧ s.skip.toNat ≤ s.params.rxCap

/-- The clean-entry state (R253). -/
abbrev State.Clean (s : State) : Prop :=
  s.phase = .idle ∧ s.tx = [] ∧ s.rx = [] ∧ s.pl = [] ∧ s.eos = false ∧ s.res = .none ∧
  s.ovf = false ∧ s.sovf = false ∧ s.ill = false

/-- An input that R264 counts among the caller's commands: any bus write, but no bus read and no other
agent's move (R13). DESIGN CHOICE (log 17), unsafe: a bus write outside CMD is counted too, though
R54 makes it no command word; R264 leaves this open. -/
def Input.isCommand : Input → Bool
  | .write _ _ => true
  | .read _ => false
  | .port _ => false
  | .reset => false

/-- A run is over: every caller command has been performed and `phase = IDLE` (R264). DESIGN CHOICE
(log 17): it is not over while a bus write outside CMD is still pending. -/
abbrev State.Over (s : State) : Prop :=
  s.pending.any Input.isCommand = false ∧ s.phase = .idle

/-- The observation at the end of a run: every element of R22 and the bytes TXTAKE emitted (R264; which
bytes these are is `State.observe`'s choice, log 18). -/
structure Observation where
  crc : Word
  win : Bool
  stage : List Byte
  tx : List Byte
  rx : List Byte
  pl : List Byte
  phase : Phase
  res : ResCode
  eos : Bool
  ovf : Bool
  sovf : Bool
  ill : Bool
  cand : BitVec 2
  consumed : Word
  skip : Word
  emitted : List Byte
  deriving DecidableEq, Repr

/-- What R264 observes of a state. DESIGN CHOICE (log 18), unsafe: the bytes emitted are the whole list
since `State.powerOn`, so a run that starts in a state with `emitted ≠ []` also shows what was emitted
before it; R264 does not say whether they belong to the observation. -/
def State.observe (s : State) : Observation where
  crc := s.crc
  win := s.win
  stage := s.stage
  tx := s.tx
  rx := s.rx
  pl := s.pl
  phase := s.phase
  res := s.res
  eos := s.eos
  ovf := s.ovf
  sovf := s.sovf
  ill := s.ill
  cand := s.cand
  consumed := s.consumed
  skip := s.skip
  emitted := s.emitted

/-- No illegal command or bus write was seen: the premise of a claim about a run
(60_exceptions.md R224, R264; U15). -/
abbrev State.NoIllegal (s : State) : Prop := s.ill = false

/-- `n` steps, stopping at the first step that has no next state. -/
def runSteps : Nat → State → Host.Outcome State Fault Refusal
  | 0, s => .next s
  | n + 1, s =>
    match step s with
    | .next t => runSteps n t
    | .fault r => .fault r
    | .refused r => .refused r

/-- The command words that 30_encoding.md R75 lists as illegal in a phase, with OP = `w / 256` and
IMM = `w % 256` (R70): an unknown OP, an operand where none is taken, SETCFG with IMM[7:1] ≠ 0, and a
gated command outside IDLE. -/
abbrev IllegalCommand (w : Nat) (ph : Phase) : Prop :=
  ((0x03 ≤ w / 256 ∧ w / 256 ≤ 0x0F) ∨ (0x13 ≤ w / 256 ∧ w / 256 ≤ 0x1F) ∨
    (0x22 ≤ w / 256 ∧ w / 256 ≤ 0x2F) ∨ (0x32 ≤ w / 256 ∧ w / 256 ≤ 0x3E) ∨ 0x40 ≤ w / 256) ∨
  (w / 256 ∈ [0x00, 0x01, 0x10, 0x12, 0x20, 0x21, 0x31, 0x3F] ∧ w % 256 ≠ 0) ∨
  (w / 256 = 0x30 ∧ 2 ≤ w % 256) ∨
  (w / 256 ∈ [0x12, 0x20, 0x21, 0x30] ∧ ph ≠ .idle)

/-- The caller writes the word `w` to CMD, bus address 0x00000 (20_memory.md R52). -/
abbrev cmdIn (w : Word) : Input := .write 0x00000#20 w

/-- The transport delivers the byte `d`: the word 0x80dd (30_encoding.md R74). -/
abbrev rxbIn (d : Byte) : Input := .port (0x8000#16 ||| d.setWidth 16)

/-- The candidate index at which a frame with CRC bytes `h`, `l` is accepted: 2 when `h` is the stop
byte, 1 when only `l` is, else 0 (41_extractor.md R138). -/
def acceptIndex (h l : Byte) : Nat := if h = 0x0D#8 then 2 else if l = 0x0D#8 then 1 else 0

/-- `d` with bit `k` of its byte `j` flipped. -/
def flipBit (d : List Byte) (j k : Nat) : List Byte := d.set j (byteAt d j ^^^ (1#8 <<< k))

end Sys2Proof.Machine
end

