-- ==== Sys2Proof/Certificates/Slice0/Obligations.lean ====
section
/-! DEFINITION. The statements for the provers: what the numbered rules of the spec say the block does. -/

open Sys2Proof Sys2Proof.Machine

/-! ### Encoding -/

/-- Decoding the word of any well-formed instruction gives it back (30_encoding.md R70 to R74). -/
def Obligations.DecodeAfterEncode : Prop :=
  ∀ i : Instr, i.wellFormed = true → decodeWord (encode i) = some i

/-- A word that decodes is the word of the instruction it decodes to, which is well formed: each legal
word has one meaning (30_encoding.md R73, R74). -/
def Obligations.EncodeAfterDecode : Prop :=
  ∀ (w : Word) (i : Instr), decodeWord w = some i → i.wellFormed = true ∧ encode i = w

/-- No word belongs to two rows of the two opcode maps (30_encoding.md R73, R74). -/
def Obligations.OpcodeRowsDoNotOverlap : Prop :=
  (commandRows ++ transportRows).Pairwise fun r r' =>
    ∀ w : Word, w &&& r.mask = r.pattern → w &&& r'.mask ≠ r'.pattern

/-- The example encodings of 30_encoding.md R80, and its illegal word. -/
def Obligations.ExampleEncodings : Prop :=
  decodeCommand 0x1151#16 = some (.stbyte 0x51#8) ∧
  decodeCommand 0x02FF#16 = some (.crcbyte 0xFF#8) ∧
  decodeCommand 0x3001#16 = some (.setcfg 1#8) ∧
  decodeCommand 0x1200#16 = some .send ∧
  decodeCommand 0x3F00#16 = some .release ∧
  decodeTransport 0x800D#16 = some (.rxb 0x0D#8) ∧
  decodeTransport 0x8300#16 = some .txtake ∧
  ∀ s : State, performCommand 0x1201#16 s = .next { s with ill := true }

/-- The two ports share no instruction: a word written to CMD never acts as a transport event, and a
word on the transport port never acts as a command (30_encoding.md R74, R75; 60_exceptions.md R230). -/
def Obligations.PortsShareNoInstruction : Prop :=
  ∀ (w : Word) (i : Instr),
    (decodeCommand w = some i → i.isTransport = false ∧ w.getLsbD 15 = false) ∧
    (decodeTransport w = some i → i.isTransport = true ∧ w.getLsbD 15 = true)

/-- Every command word that R75 lists as illegal, the gated ones outside IDLE among them, sets ILL and
changes nothing else; every other word stands for a command. -/
def Obligations.IllegalCommandWordsOnlySetIll : Prop :=
  ∀ (s : State) (w : Word) (rest : List Input), s.pending = cmdIn w :: rest →
    (IllegalCommand w.toNat s.phase → step s = .next { s with pending := rest, ill := true }) ∧
    (¬ IllegalCommand w.toNat s.phase → ∃ i, decodeCommand w = some i)

/-- A bus write to any address but CMD sets ILL and nothing else; one to CMD is performed as the
command it carries (20_memory.md R54). -/
def Obligations.BusWritesActOnlyAtCmd : Prop :=
  ∀ (s : State) (a : BusAddr) (v : Word) (rest : List Input), s.pending = .write a v :: rest →
    (a ≠ 0x00000#20 → step s = .next { s with pending := rest, ill := true }) ∧
    (a = 0x00000#20 → step s = performCommand v { s with pending := rest })

/-! ### The step -/

/-- A command word at CMD, or an event word on the transport port, that decodes to an instruction runs
it: the step is `exec` of it on the state with that input taken. -/
def Obligations.StepRunsTheDecodedInstruction : Prop :=
  ∀ (s : State) (w : Word) (i : Instr) (rest : List Input),
    (s.pending = cmdIn w :: rest → decodeCommand w = some i →
      step s = exec i { s with pending := rest }) ∧
    (s.pending = .port w :: rest → decodeTransport w = some i →
      step s = exec i { s with pending := rest })

/-- A step has no next state exactly when the next input is a move that its agent does not have
(43_accumulator.md R172, 30_encoding.md R74), and no step is refused. The faults are the model's form
of "no step" (logs 4 and 5). -/
def Obligations.StepStopsExactlyOnMissingMoves : Prop :=
  ∀ s : State,
    ((∃ r, step s = .fault r) ↔ ∃ inp rest, s.pending = inp :: rest ∧ inp.enabled s = false) ∧
    (∀ r, step s ≠ .refused r)

/-- With no input a step changes nothing; otherwise it takes one input, never changes the parameters,
and only adds to what was put out, at most one byte and one answer. These are the model's own fields and
the model's choice of what a step without input is (logs 1 to 3; 00_scope.md R13). -/
def Obligations.StepTakesOneInputAndKeepsOutputs : Prop :=
  ∀ s : State,
    (s.pending = [] → step s = .next s) ∧
    ∀ t, step s = .next t →
      t.pending = s.pending.tail ∧ t.params = s.params ∧
      s.emitted <+: t.emitted ∧ s.answers <+: t.answers ∧
      t.emitted.length ≤ s.emitted.length + 1 ∧ t.answers.length ≤ s.answers.length + 1

/-! ### Reset and the invariant -/

/-- The reset event sets every state element to its reset value (70_reset_and_hazards.md R250), and
the registers read as R250 says. -/
def Obligations.ResetEventSetsEveryElement : Prop :=
  ∀ (s : State) (rest : List Input), s.pending = .reset :: rest →
    ∃ t, step s = .next t ∧ t.crc = 0x0000#16 ∧ t.win = s.params.winReset ∧ t.stage = [] ∧
      t.tx = [] ∧ t.rx = [] ∧ t.pl = [] ∧ t.phase = .idle ∧ t.res = .none ∧ t.eos = false ∧
      t.ovf = false ∧ t.sovf = false ∧ t.ill = false ∧ t.cand = 0#2 ∧ t.consumed = 0#16 ∧
      t.skip = 0#16 ∧ busRead t 0x00001#20 = 0x0000#16 ∧
      busRead t 0x00002#20 = (if s.params.winReset then 0x0001#16 else 0x0000#16) ∧
      ∀ a : BusAddr, 3 ≤ a.toNat → a.toNat ≤ 9 → busRead t a = 0x0000#16

/-- The state after reset holds the values of R22 and R250, with legal parameters (00_scope.md R6);
the parameters themselves are the open constants of log 1. -/
def Obligations.ResetStateValues : Prop :=
  State.reset.crc = 0x0000#16 ∧ State.reset.win = State.reset.params.winReset ∧
  State.reset.stage = [] ∧ State.reset.tx = [] ∧ State.reset.rx = [] ∧ State.reset.pl = [] ∧
  State.reset.phase = .idle ∧ State.reset.res = .none ∧ State.reset.eos = false ∧
  State.reset.ovf = false ∧ State.reset.sovf = false ∧ State.reset.ill = false ∧
  State.reset.cand = 0#2 ∧ State.reset.consumed = 0#16 ∧ State.reset.skip = 0#16 ∧
  State.reset.params.Legal ∧ State.reset.Clean

/-- The state after reset meets the invariant. -/
def Obligations.ResetMeetsTheInvariant : Prop := State.reset.Inv

/-- Every step keeps the invariant, from every state that meets it. -/
def Obligations.StepKeepsTheInvariant : Prop :=
  ∀ s t : State, s.Inv → step s = .next t → t.Inv

/-- The facts of 10_state.md R40 hold in every reachable state: after any number of steps, from reset
with any legal parameters, whatever the inputs. -/
def Obligations.ReachableStatesMeetTheFacts : Prop :=
  ∀ (p : Params) (inputs : List Input) (n : Nat) (t : State), p.Legal →
    runSteps n { State.powerOn p with pending := inputs } = .next t → t.ReachableFacts

/-! ### The CRC -/

/-- CRCINIT clears the CRC unit and CRCBYTE feeds one byte to it, in every state; nothing else changes
(40_crc.md R104, R105). -/
def Obligations.CrcUnitCommandsWriteOnlyCrc : Prop :=
  ∀ (s : State) (b : Byte),
    exec .crcinit s = .next { s with crc := 0x0000#16 } ∧
    exec (.crcbyte b) s = .next { s with crc := crcStep s.crc b }

/-- A CRC step is the byte-wide table form: shift by a byte and add the table entry of the outgoing
byte (40_crc.md R109, R101). -/
def Obligations.CrcStepIsTableDriven : Prop :=
  ∀ (c : Word) (b : Byte),
    crcStep c b = (c <<< 8) ^^^ crcStep 0x0000#16 (highByte c ^^^ b)

/-- The residue law: a sequence followed by its own CRC, big-endian, has CRC 0 (40_crc.md R107). -/
def Obligations.CrcResidueIsZero : Prop :=
  ∀ d : List Byte, crc16 (d ++ [highByte (crc16 d), lowByte (crc16 d)]) = 0x0000#16

/-- The CRC is linear, and a change of any single bit changes it (40_crc.md R108). -/
def Obligations.CrcIsLinearAndSeesEveryBit : Prop :=
  (∀ d1 d2 : List Byte, d1.length = d2.length →
    crc16 (List.zipWith (· ^^^ ·) d1 d2) = crc16 d1 ^^^ crc16 d2) ∧
  (∀ (d : List Byte) (j k : Nat), j < d.length → k < 8 → crc16 (flipBit d j k) ≠ crc16 d)

/-- CRCINIT and one CRCBYTE for each byte leave the CRC of the bytes in `crc` and change nothing else
(40_crc.md R102, R104, R105; 30_encoding.md R79 CRCOF). -/
def Obligations.CrcUnitComputesCrc16 : Prop :=
  ∀ (s : State) (d : List Byte) (rest : List Input),
    s.pending = cmdIn 0x0100#16 :: (d.map (fun b => cmdIn (0x0200#16 ||| b.setWidth 16)) ++ rest) →
    runSteps (d.length + 1) s = .next { s with crc := crc16 d, pending := rest }

/-- Only CRCINIT, CRCBYTE and reset write `crc`, and no other instruction reads it (10_state.md R23). -/
def Obligations.CrcUnitIsApartFromTheCodec : Prop :=
  (∀ s t : State, step s = .next t → t.crc ≠ s.crc →
    ∃ rest, s.pending = cmdIn 0x0100#16 :: rest ∨ s.pending = .reset :: rest ∨
      ∃ b : Byte, s.pending = cmdIn (0x0200#16 ||| b.setWidth 16) :: rest) ∧
  (∀ (i : Instr) (s t : State) (c : Word), i ≠ .crcinit → (∀ b, i ≠ .crcbyte b) →
    exec i s = .next t → exec i { s with crc := c } = .next { t with crc := c })

/-! ### The encoder -/

/-- STCLR empties `stage`; STBYTE appends to it, or sets SOVF and drops the byte when it is full;
nothing else changes, in any phase (42_encoder.md R150, R152). -/
def Obligations.StagingCommandsWriteOnlyStage : Prop :=
  ∀ (s : State) (b : Byte),
    exec .stclr s = .next { s with stage := [] } ∧
    (s.stage.length ≠ s.params.stageCap →
      exec (.stbyte b) s = .next { s with stage := s.stage ++ [b] }) ∧
    (s.stage.length = s.params.stageCap →
      exec (.stbyte b) s = .next { s with sovf := true })

/-- SEND in IDLE puts the request frame in `tx` and starts an exchange; `stage`, `rx` and the sticky
flags are kept (42_encoder.md R153, R151). -/
def Obligations.SendStartsAnExchange : Prop :=
  ∀ s : State, s.phase = .idle →
    exec .send s = .next { s with
      tx := s.stage ++ [highByte (crc16 s.stage), lowByte (crc16 s.stage), 0x0D#8]
      phase := .tx, res := .none, pl := [], consumed := 0#16, skip := 0#16, cand := 0#2 }

/-- SEND, DECODE, DECODEF and SETCFG outside IDLE, and SETCFG with IMM[7:1] ≠ 0 in any phase, set ILL
and nothing else (30_encoding.md R73; 42 R153; 41 R140, R141; 44 R201). -/
def Obligations.GatedCommandsRaiseIllOutsideIdle : Prop :=
  ∀ (s : State) (imm : Byte),
    (s.phase ≠ .idle →
      exec .send s = .next { s with ill := true } ∧
      exec .decode s = .next { s with ill := true } ∧
      exec .decodef s = .next { s with ill := true } ∧
      exec (.setcfg imm) s = .next { s with ill := true }) ∧
    (2 ≤ imm.toNat → exec (.setcfg imm) s = .next { s with ill := true })

/-- The frame SEND puts in `tx` carries the CRC of the bytes before it, big-endian, and ends in the
stop byte; equivalently its CRC through those two bytes is 0 (42_encoder.md R155). -/
def Obligations.SentRequestsCarryTheirCrc : Prop :=
  ∀ s : State, s.phase = .idle →
    ∃ t, exec .send s = .next t ∧ 3 ≤ t.tx.length ∧
      crc16 (t.tx.take (t.tx.length - 3)) =
        bigEndian (byteAt t.tx (t.tx.length - 3)) (byteAt t.tx (t.tx.length - 2)) ∧
      byteAt t.tx (t.tx.length - 1) = 0x0D#8 ∧
      crc16 (t.tx.take (t.tx.length - 1)) = 0x0000#16

/-- SEND and then one TXTAKE for each byte hand exactly `frame_req(stage)` to the transport, in order;
the exchange then waits, or ends with ERR_EOF when end of stream was seen before
(42_encoder.md R156; 43_accumulator.md R180). -/
def Obligations.RequestIsTransmittedInFull : Prop :=
  ∀ (s : State) (rest : List Input), s.phase = .idle →
    s.pending = cmdIn 0x1200#16 :: (List.replicate (s.stage.length + 3) (.port 0x8300#16) ++ rest) →
    ∃ t, runSteps (s.stage.length + 4) s = .next t ∧
      t.emitted = s.emitted ++
        (s.stage ++ [highByte (crc16 s.stage), lowByte (crc16 s.stage), 0x0D#8]) ∧
      t.tx = [] ∧ t.pending = rest ∧ t.stage = s.stage ∧ t.rx = s.rx ∧
      (s.eos = false → t.phase = .await ∧ t.res = .none) ∧
      (s.eos = true → t.phase = .idle ∧ t.res = .errEof)

/-- In TX, whatever happens, the bytes already emitted followed by those still in `tx` stay the same
sequence, unless an IOERR, a RELEASE or a reset ends the exchange (42_encoder.md R156). -/
def Obligations.TransmissionLosesNoByte : Prop :=
  ∀ s t : State, s.phase = .tx → step s = .next t →
    t.emitted ++ t.tx = s.emitted ++ s.tx ∨
    (t.emitted = s.emitted ∧ t.tx = [] ∧ t.phase = .idle ∧
      ∃ rest, s.pending = .port 0x8200#16 :: rest ∨ s.pending = cmdIn 0x3F00#16 :: rest ∨
        s.pending = .reset :: rest)

/-! ### The extractor -/

/-- With no stop byte the outcome is INCOMPLETE in both modes; with no start byte before the first stop
byte it is ERR_FRAMING through that byte, whatever follows (41_extractor.md R124, R126). -/
def Obligations.ExtractWithoutStopOrStart : Prop :=
  (∀ (b : List Byte) (f w : Bool), 0x0D#8 ∉ b → extract b f w = ⟨.incomplete, 0, [], 0, 0⟩) ∧
  (∀ (item rest : List Byte) (f w : Bool), 0x0D#8 ∉ item → 0x28#8 ∉ item →
    extract (item ++ 0x0D#8 :: rest) f w = ⟨.errFraming, item.length + 1, [], 0, 0⟩)

/-- Every FRAME is a response frame with a matching CRC: the bytes removed are a prefix with neither
start nor stop byte, the start byte, the payload, the two CRC bytes and the stop byte, and the CRC of
the window is the one stored (41_extractor.md R127, R129, R131; 60_exceptions.md R233). -/
def Obligations.ExtractedFramesAreVerified : Prop :=
  ∀ (b : List Byte) (f w : Bool) (n k i : Nat) (pay : List Byte),
    extract b f w = ⟨.frame, n, pay, k, i⟩ →
    ∃ (pre : List Byte) (h l : Byte) (tail : List Byte),
      b = pre ++ (0x28#8 :: pay ++ [h, l, 0x0D#8]) ++ tail ∧
      pre.length = k ∧ n = k + pay.length + 4 ∧
      0x28#8 ∉ pre ∧ 0x0D#8 ∉ pre ∧ 0x0D#8 ∉ pay ∧
      crc16 (if w then 0x28#8 :: pay else pay) = bigEndian h l ∧ i = acceptIndex h l

/-- Round trip: a response frame whose payload holds no stop byte is extracted whole, whatever follows
it and in both modes; a payload holding one cannot round-trip (41_extractor.md R138 (a)). -/
def Obligations.ResponseFramesRoundTrip : Prop :=
  (∀ (p e : List Byte) (f w : Bool), 0x0D#8 ∉ p →
    extract (frameRsp p w ++ e) f w = ⟨.frame, p.length + 4, p, 0,
      acceptIndex (highByte (crc16 (responseWindow p w))) (lowByte (crc16 (responseWindow p w)))⟩) ∧
  (∀ (p e : List Byte) (f w : Bool), 0x0D#8 ∈ p → (extract (frameRsp p w ++ e) f w).pay ≠ p)

/-- Incremental delivery: every proper prefix of a response frame is INCOMPLETE
(41_extractor.md R138 (b)). -/
def Obligations.ResponsePrefixesAreIncomplete : Prop :=
  ∀ (p : List Byte) (w : Bool) (m : Nat), 0x0D#8 ∉ p → m < p.length + 4 →
    extract ((frameRsp p w).take m) false w = ⟨.incomplete, 0, [], 0, 0⟩

/-- Resync recovery: garbage with neither stop nor start byte before a response frame is discarded with
it (41_extractor.md R139). -/
def Obligations.ResyncRecoversTheFrame : Prop :=
  ∀ (g p : List Byte) (f w : Bool), 0x0D#8 ∉ g → 0x28#8 ∉ g → 0x0D#8 ∉ p →
    extract (g ++ frameRsp p w) f w = ⟨.frame, g.length + (p.length + 4), p, g.length,
      acceptIndex (highByte (crc16 (responseWindow p w))) (lowByte (crc16 (responseWindow p w)))⟩

/-- CRC corruption: a response frame with one payload bit flipped, no stop byte made by the flip and
none among its CRC bytes, is ERR_CRC in final mode and before two bytes that are not stop bytes, and
INCOMPLETE at the end of the buffer (41_extractor.md R139). -/
def Obligations.CorruptedFramesAreRejected : Prop :=
  ∀ (p bad : List Byte) (w : Bool) (j k : Nat) (h l : Byte),
    0x0D#8 ∉ p → j < p.length → k < 8 → bad = flipBit p j k → 0x0D#8 ∉ bad →
    h = highByte (crc16 (responseWindow p w)) → l = lowByte (crc16 (responseWindow p w)) →
    h ≠ 0x0D#8 → l ≠ 0x0D#8 →
    extract (0x28#8 :: bad ++ [h, l, 0x0D#8]) true w = ⟨.errCrc, p.length + 4, [], 0, 0⟩ ∧
    extract (0x28#8 :: bad ++ [h, l, 0x0D#8]) false w = ⟨.incomplete, 0, [], 0, 0⟩ ∧
    (∀ (x y : Byte) (e : List Byte), x ≠ 0x0D#8 → y ≠ 0x0D#8 →
      extract ((0x28#8 :: bad ++ [h, l, 0x0D#8]) ++ x :: y :: e) false w =
        ⟨.errCrc, p.length + 4, [], 0, 0⟩)

/-- Stability: an outcome other than INCOMPLETE stays the same tuple when bytes are appended, and it
reads only the bytes through `p + 2`, `p` being the first stop byte (41_extractor.md R136). -/
def Obligations.ExtractIsStableUnderAppend : Prop :=
  ∀ (b e : List Byte) (w : Bool), (extract b false w).out ≠ .incomplete →
    extract (b ++ e) false w = extract b false w ∧
    ∃ p, first b 0x0D#8 = some p ∧ extract (b.take (p + 3)) false w = extract b false w

/-- The state machine of 41_extractor.md R133, run from SCAN, exits with the tuple `extract` gives. -/
def Obligations.ResyncStateMachineIsExtract : Prop :=
  ∀ (b : List Byte) (f w : Bool), fsmRun b f w 8 .scan = .exit (extract b f w)

/-- Final mode differs only where a probe runs past the end, at most two bytes past the first stop
byte `p`, with the first start byte `k` before it: there it is ERR_CRC over the whole buffer with SKIP
`k`, and non-final mode is INCOMPLETE. Conversely, wherever non-final mode is INCOMPLETE on a buffer with
such a `p` and `k`, final mode is that ERR_CRC (41_extractor.md R122, R130, R141). -/
def Obligations.FinalModeDiffersOnlyPastTheEnd : Prop :=
  ∀ (b : List Byte) (w : Bool),
    (extract b true w ≠ extract b false w →
      ∃ p k, first b 0x0D#8 = some p ∧ first b 0x28#8 = some k ∧ k < p ∧ b.length ≤ p + 2 ∧
        extract b false w = ⟨.incomplete, 0, [], 0, 0⟩ ∧
        extract b true w = ⟨.errCrc, b.length, [], k, 0⟩) ∧
    (∀ p k, first b 0x0D#8 = some p → first b 0x28#8 = some k → k < p →
      (extract b false w).out = .incomplete →
      extract b true w = ⟨.errCrc, b.length, [], k, 0⟩)

/-- A non-final ERR_CRC discards through a stop byte at most two past the first one, and only once all
three candidate positions are buffered; `k` is the first start byte (41_extractor.md R134, R130). -/
def Obligations.CrcErrorsDiscardThroughAStopByte : Prop :=
  ∀ (b : List Byte) (w : Bool) (n k i : Nat) (pay : List Byte),
    extract b false w = ⟨.errCrc, n, pay, k, i⟩ →
    ∃ p, first b 0x0D#8 = some p ∧ first b 0x28#8 = some k ∧ k < p ∧
      p + 2 < b.length ∧ p < n ∧ n ≤ p + 3 ∧ byteAt b (n - 1) = 0x0D#8 ∧
      (∀ q, n ≤ q → q ≤ p + 2 → byteAt b q ≠ 0x0D#8) ∧ pay = [] ∧ i = 0

/-- DECODE and DECODEF in IDLE empty `pl`, extract once from `rx` (non-final, final) and write RES,
CONSUMED, SKIP, CAND, `rx` and `pl`; nothing else changes (41_extractor.md R132, R140, R141). -/
def Obligations.DecodeCommandsApplyOneExtraction : Prop :=
  ∀ (s : State) (r rf : Extraction), s.phase = .idle →
    r = extract s.rx false s.win → rf = extract s.rx true s.win →
    exec .decode s = .next { s with
      res := r.out.resCode, consumed := BitVec.ofNat 16 r.n, skip := BitVec.ofNat 16 r.k
      cand := BitVec.ofNat 2 r.i, rx := s.rx.drop r.n, pl := r.pay } ∧
    exec .decodef s = .next { s with
      res := rf.out.resCode, consumed := BitVec.ofNat 16 rf.n, skip := BitVec.ofNat 16 rf.k
      cand := BitVec.ofNat 2 rf.i, rx := s.rx.drop rf.n, pl := rf.pay }

/-! ### The accumulator and the sequencer -/

/-- RXB with room, in IDLE or TX, only appends the byte (43_accumulator.md R174). -/
def Obligations.ReceiveOutsideAwaitOnlyStores : Prop :=
  ∀ (s : State) (d : Byte), s.eos = false → s.rx.length ≠ s.params.rxCap → s.phase ≠ .await →
    exec (.rxb d) s = .next { s with rx := s.rx ++ [d] }

/-- RXB with room in AWAIT appends the byte and applies one non-final extraction; any outcome but
INCOMPLETE ends the exchange, and `pl` is written on FRAME only (43_accumulator.md R174, R176). -/
def Obligations.ReceiveInAwaitExtractsOnce : Prop :=
  ∀ (s : State) (d : Byte) (r : Extraction), s.eos = false → s.rx.length ≠ s.params.rxCap →
    s.phase = .await → r = extract (s.rx ++ [d]) false s.win →
    exec (.rxb d) s = .next { s with
      res := r.out.resCode, consumed := BitVec.ofNat 16 r.n, skip := BitVec.ofNat 16 r.k
      cand := BitVec.ofNat 2 r.i, rx := (s.rx ++ [d]).drop r.n
      pl := if r.out = .frame then r.pay else s.pl
      phase := if r.out = .incomplete then .await else .idle }

/-- RXB with `rx` full discards the buffer and the byte, sets OVF and counts what it discarded; in
AWAIT, and only there, it ends the exchange with ERR_OVF (43_accumulator.md R175). That CONSUMED, SKIP
and CAND are written in IDLE and TX too is R175 and vector A10 read against R260 and R221: the model's
DEDUCED choice, log 6. -/
def Obligations.ReceiveOverflowDiscardsEverything : Prop :=
  ∀ (s : State) (d : Byte), s.eos = false → s.rx.length = s.params.rxCap →
    exec (.rxb d) s = .next { s with
      consumed := BitVec.ofNat 16 s.rx.length, skip := 0#16, cand := 0#2, rx := [], ovf := true
      res := if s.phase = .await then .errOvf else s.res
      phase := if s.phase = .await then .idle else s.phase }

/-- TXTAKE emits the front byte; on the last one the exchange waits, or ends with ERR_EOF when
`eos = 1`; nothing else changes (43_accumulator.md R180). -/
def Obligations.TxtakeEmitsTheFrontByte : Prop :=
  ∀ (s : State) (b : Byte) (rest : List Byte), s.tx = b :: rest →
    (rest ≠ [] → exec .txtake s = .next { s with tx := rest, emitted := s.emitted ++ [b] }) ∧
    (rest = [] → s.eos = false →
      exec .txtake s = .next { s with tx := [], emitted := s.emitted ++ [b], phase := .await }) ∧
    (rest = [] → s.eos = true →
      exec .txtake s = .next { s with
        tx := [], emitted := s.emitted ++ [b], phase := .idle, res := .errEof })

/-- RXEOS sets EOS and in AWAIT ends the exchange with ERR_EOF; IOERR in TX or AWAIT ends it with
ERR_IO and empties `tx`, and in IDLE has no effect (43_accumulator.md R181, R182). -/
def Obligations.EndOfStreamAndFailureEndTheExchange : Prop :=
  ∀ s : State,
    (s.phase = .await →
      exec .rxeos s = .next { s with eos := true, res := .errEof, phase := .idle }) ∧
    (s.phase ≠ .await → exec .rxeos s = .next { s with eos := true }) ∧
    (s.phase ≠ .idle →
      exec .ioerr s = .next { s with res := .errIo, tx := [], phase := .idle }) ∧
    (s.phase = .idle → exec .ioerr s = .next s)

/-- A transport word whose move does not exist has no step: RXB while `eos = 1`, TXTAKE while
`tx = []` (43_accumulator.md R172), and a word that matches no row (30_encoding.md R74). The faults are
the model's form of "no step" (logs 4 and 5). -/
def Obligations.MissingTransportMovesHaveNoStep : Prop :=
  ∀ (s : State) (rest : List Input) (d : Byte) (w : Word),
    (s.eos = true → s.pending = rxbIn d :: rest → step s = .fault .rxbAfterEos) ∧
    (s.tx = [] → s.pending = .port 0x8300#16 :: rest → step s = .fault .txtakeWhileTxEmpty) ∧
    (s.pending = .port w :: rest → w.toNat / 256 ≠ 0x80 → w ≠ 0x8100#16 → w ≠ 0x8200#16 →
      w ≠ 0x8300#16 → step s = .fault .notATransportEvent)

/-- Every change of `phase` is one row of the table of 43_accumulator.md R190, with the result code the
row writes. -/
def Obligations.PhaseChangesOnlyByTheTable : Prop :=
  ∀ s t : State, s.Inv → step s = .next t → t.phase ≠ s.phase →
    ∃ inp rest, s.pending = inp :: rest ∧
      ((s.phase = .idle ∧ inp = cmdIn 0x1200#16 ∧ t.phase = .tx ∧ t.res = .none) ∨
       (s.phase = .tx ∧ inp = .port 0x8300#16 ∧ t.tx = [] ∧ s.eos = false ∧
          t.phase = .await ∧ t.res = s.res) ∨
       (s.phase = .tx ∧ inp = .port 0x8300#16 ∧ t.tx = [] ∧ s.eos = true ∧
          t.phase = .idle ∧ t.res = .errEof) ∨
       (s.phase = .tx ∧ inp = .port 0x8200#16 ∧ t.phase = .idle ∧ t.res = .errIo) ∨
       (s.phase = .await ∧ t.phase = .idle ∧ ∃ d, inp = rxbIn d ∧
          s.rx.length ≠ s.params.rxCap ∧
          (extract (s.rx ++ [d]) false s.win).out ≠ .incomplete ∧
          t.res = (extract (s.rx ++ [d]) false s.win).out.resCode) ∨
       (s.phase = .await ∧ t.phase = .idle ∧ (∃ d, inp = rxbIn d) ∧
          s.rx.length = s.params.rxCap ∧ t.res = .errOvf) ∨
       (s.phase = .await ∧ inp = .port 0x8100#16 ∧ t.phase = .idle ∧ t.res = .errEof) ∨
       (s.phase = .await ∧ inp = .port 0x8200#16 ∧ t.phase = .idle ∧ t.res = .errIo) ∨
       (inp = cmdIn 0x3F00#16 ∧ t.phase = .idle ∧ t.res = .none) ∨
       (inp = .reset ∧ t.phase = .idle ∧ t.res = .none))

/-- An exchange ends with exactly one result: FRAME with the payload the extraction gave, an error with
`pl` empty, or NONE by RELEASE or reset (43_accumulator.md R191). -/
def Obligations.ExchangesEndWithOneResult : Prop :=
  ∀ s t : State, s.Inv → s.phase ≠ .idle → step s = .next t → t.phase = .idle →
    (t.res = .frame ∧ ∃ d rest, s.pending = rxbIn d :: rest ∧
      t.pl = (extract (s.rx ++ [d]) false s.win).pay) ∨
    (t.res ∈ [ResCode.errFraming, .errCrc, .errEof, .errIo, .errOvf] ∧ t.pl = []) ∨
    (t.res = .none ∧ t.pl = [] ∧
      ∃ rest, s.pending = cmdIn 0x3F00#16 :: rest ∨ s.pending = .reset :: rest)

/-- In IDLE no transport event changes `pl`, RES or the phase, and none but an overflow changes
CONSUMED, SKIP or CAND (70_reset_and_hazards.md R260, read with 43_accumulator.md R175: log 6). -/
def Obligations.IdleTransportEventsKeepTheResult : Prop :=
  ∀ (s t : State) (w : Word) (rest : List Input), s.Inv → s.phase = .idle →
    s.pending = .port w :: rest → step s = .next t →
    t.pl = s.pl ∧ t.res = s.res ∧ t.phase = .idle ∧
    (s.rx.length ≠ s.params.rxCap →
      t.consumed = s.consumed ∧ t.skip = s.skip ∧ t.cand = s.cand)

/-- `rx` grows only at its back, by the byte of an RXB, and shrinks only from its front
(10_state.md R28). -/
def Obligations.ReceiveBufferIsAQueue : Prop :=
  ∀ s t : State, step s = .next t →
    (∃ n, t.rx = s.rx.drop n) ∨
    (∃ (d : Byte) (rest : List Input) (n : Nat),
      s.pending = rxbIn d :: rest ∧ t.rx = (s.rx ++ [d]).drop n)

/-- A response frame delivered byte by byte to an exchange that waits with `rx` empty ends it with
FRAME and the payload in `pl`, the buffer drained (41_extractor.md R138; 43_accumulator.md R174). -/
def Obligations.DeliveredResponseEndsTheExchange : Prop :=
  ∀ (s : State) (p : List Byte) (rest : List Input), s.phase = .await → s.eos = false →
    s.rx = [] → 0x0D#8 ∉ p → p.length + 4 ≤ s.params.rxCap →
    s.pending = (frameRsp p s.win).map rxbIn ++ rest →
    runSteps (p.length + 4) s = .next { s with
      pending := rest, phase := .idle, res := .frame, pl := p, rx := []
      consumed := BitVec.ofNat 16 (p.length + 4), skip := 0#16
      cand := BitVec.ofNat 2 (acceptIndex (highByte (crc16 (responseWindow p s.win)))
        (lowByte (crc16 (responseWindow p s.win)))) }

/-- The pairs of events of 60_exceptions.md R226 in both orders: the last TXTAKE and IOERR; the RXB
that completes a frame and RXEOS, and IOERR; RXB and SEND, whose order does not show; RXB and DECODE in
IDLE, where DECODE sees the byte only when it came first; and RXB and RELEASE. Where R226 says that the
second event has no move, the conclusion is a fault: the model's form of "no move" (DESIGN CHOICE,
log 4). -/
def Obligations.OrderOfSimultaneousEvents : Prop :=
  ∀ (s : State) (b d : Byte), s.eos = false → s.rx.length ≠ s.params.rxCap →
    (s.phase = .tx → s.tx = [b] →
      (∃ t u, exec .txtake s = .next t ∧ exec .ioerr t = .next u ∧
        u.emitted = s.emitted ++ [b] ∧ u.res = .errIo) ∧
      (∃ t, exec .ioerr s = .next t ∧ t.emitted = s.emitted ∧ t.res = .errIo ∧
        exec .txtake t = .fault .txtakeWhileTxEmpty)) ∧
    (s.phase = .await → (extract (s.rx ++ [d]) false s.win).out = .frame →
      (∃ t u, exec (.rxb d) s = .next t ∧ exec .rxeos t = .next u ∧
        u = { t with eos := true } ∧ u.res = .frame) ∧
      (∃ t, exec .rxeos s = .next t ∧ t.res = .errEof ∧ exec (.rxb d) t = .fault .rxbAfterEos) ∧
      (∃ t, exec (.rxb d) s = .next t ∧ t.res = .frame ∧ exec .ioerr t = .next t) ∧
      (∃ t u, exec .ioerr s = .next t ∧ exec (.rxb d) t = .next u ∧
        u = { t with rx := s.rx ++ [d] } ∧ u.res = .errIo)) ∧
    (s.phase = .idle →
      ∃ t u, exec (.rxb d) s = .next t ∧ exec .send t = .next u ∧
        ∃ t', exec .send s = .next t' ∧ exec (.rxb d) t' = .next u) ∧
    (s.phase = .idle → s.rx.length < s.params.rxCap →
      (∃ t u, exec (.rxb d) s = .next t ∧ exec .decode t = .next u ∧
        u.res = (extract (s.rx ++ [d]) false s.win).out.resCode ∧
        u.pl = (extract (s.rx ++ [d]) false s.win).pay ∧
        u.rx = (s.rx ++ [d]).drop (extract (s.rx ++ [d]) false s.win).n) ∧
      (∃ t u, exec .decode s = .next t ∧ exec (.rxb d) t = .next u ∧
        u.res = (extract s.rx false s.win).out.resCode ∧
        u.pl = (extract s.rx false s.win).pay ∧
        u.rx = s.rx.drop (extract s.rx false s.win).n ++ [d])) ∧
    (1 ≤ s.params.rxCap →
      (∃ t u, exec (.rxb d) s = .next t ∧ exec .release t = .next u ∧ u.rx = []) ∧
      (∃ t u, exec .release s = .next t ∧ exec (.rxb d) t = .next u ∧ u.rx = [d]))

/-! ### The flags -/

/-- RXEOS sets EOS; only RELEASE and reset clear it; while it is set the transport delivers no byte
(10_state.md R31). -/
def Obligations.EndOfStreamFlagRules : Prop :=
  ∀ s t : State, step s = .next t →
    (s.eos = false → (t.eos = true ↔ ∃ rest, s.pending = .port 0x8100#16 :: rest)) ∧
    (s.eos = true → (t.eos = false ↔
      ∃ rest, s.pending = cmdIn 0x3F00#16 :: rest ∨ s.pending = .reset :: rest)) ∧
    (s.eos = true → ∀ d rest, s.pending ≠ rxbIn d :: rest)

/-- OVF is set exactly by an RXB that finds `rx` full, SOVF exactly by a STBYTE that finds `stage` full;
only CLRFLAGS and reset clear them (10_state.md R32, R33). -/
def Obligations.OverflowFlagRules : Prop :=
  ∀ s t : State, step s = .next t →
    (s.ovf = false → (t.ovf = true ↔
      s.rx.length = s.params.rxCap ∧ ∃ d rest, s.pending = rxbIn d :: rest)) ∧
    (s.sovf = false → (t.sovf = true ↔ s.stage.length = s.params.stageCap ∧
      ∃ (b : Byte) (rest : List Input),
        s.pending = cmdIn (0x1100#16 ||| b.setWidth 16) :: rest)) ∧
    (s.ovf = true → (t.ovf = false ↔
      ∃ rest, s.pending = cmdIn 0x3100#16 :: rest ∨ s.pending = .reset :: rest)) ∧
    (s.sovf = true → (t.sovf = false ↔
      ∃ rest, s.pending = cmdIn 0x3100#16 :: rest ∨ s.pending = .reset :: rest))

/-- ILL is set exactly by an illegal command word or a bus write outside CMD; only CLRFLAGS and reset
clear it (10_state.md R34, 60_exceptions.md R224). -/
def Obligations.IllegalFlagRules : Prop :=
  ∀ s t : State, step s = .next t →
    (s.ill = false → (t.ill = true ↔
      ∃ (a : BusAddr) (w : Word) (rest : List Input), s.pending = .write a w :: rest ∧
        (a ≠ 0x00000#20 ∨ IllegalCommand w.toNat s.phase))) ∧
    (s.ill = true → (t.ill = false ↔
      ∃ rest, s.pending = cmdIn 0x3100#16 :: rest ∨ s.pending = .reset :: rest))

/-- `win` changes only by SETCFG in IDLE, to its IMM[0], or by reset, to WIN_RESET
(10_state.md R24, 44_control.md R201). -/
def Obligations.WindowChangesOnlyBySetcfg : Prop :=
  ∀ s t : State, step s = .next t → t.win ≠ s.win →
    (s.phase = .idle ∧ ∃ rest, (s.pending = cmdIn 0x3000#16 :: rest ∧ t.win = false) ∨
      (s.pending = cmdIn 0x3001#16 :: rest ∧ t.win = true)) ∨
    (t.win = s.params.winReset ∧ ∃ rest, s.pending = .reset :: rest)

/-! ### The control commands -/

/-- NOP changes nothing; CLRFLAGS clears OVF, SOVF and ILL only; RELEASE empties `rx`, `tx` and `pl`,
goes to IDLE and clears RES, EOS and the counters, keeping the rest: each in every phase. SETCFG in IDLE
with IMM 0 or 1 writes `win` and nothing else (44_control.md R200 to R203). -/
def Obligations.ControlCommandsWriteOnlyTheirState : Prop :=
  ∀ s : State,
    exec .nop s = .next s ∧
    exec .clrflags s = .next { s with ovf := false, sovf := false, ill := false } ∧
    exec .release s = .next { s with
      rx := [], tx := [], pl := [], phase := .idle, res := .none, eos := false
      consumed := 0#16, skip := 0#16, cand := 0#2 } ∧
    (s.phase = .idle →
      exec (.setcfg 0x00#8) s = .next { s with win := false } ∧
      exec (.setcfg 0x01#8) s = .next { s with win := true })

/-- CLRFLAGS then RELEASE, and also reset, reach the clean-entry state from any state; `stage`, `crc`
and `win` are not part of it (70_reset_and_hazards.md R253). -/
def Obligations.CleanEntryIsReachedFromAnyState : Prop :=
  ∀ (s : State) (rest : List Input),
    (s.pending = cmdIn 0x3100#16 :: cmdIn 0x3F00#16 :: rest →
      ∃ t, runSteps 2 s = .next t ∧ t.Clean ∧ t.stage = s.stage ∧ t.crc = s.crc ∧ t.win = s.win) ∧
    (s.pending = .reset :: rest → ∃ t, step s = .next t ∧ t.Clean)

/-! ### The bus -/

/-- A bus read changes no state element, and two reads of one address with no event between them
answer the same word (20_memory.md R55). -/
def Obligations.BusReadsHaveNoSideEffects : Prop :=
  ∀ (s : State) (a : BusAddr) (rest : List Input),
    (s.pending = .read a :: rest →
      step s = .next { s with pending := rest, answers := s.answers ++ [busRead s a] }) ∧
    (s.pending = .read a :: .read a :: rest →
      runSteps 2 s = .next { s with
        pending := rest, answers := s.answers ++ [busRead s a, busRead s a] })

/-- What every bus address reads as: the registers, the four windows, and 0 at every reserved address
and past the end of a buffer (20_memory.md R52, R53; 10_state.md R38, R39). -/
def Obligations.BusAddressesReadAsTheMapSays : Prop :=
  ∀ s : State,
    busRead s 0x00000#20 = 0x0000#16 ∧ busRead s 0x00001#20 = statusWord s ∧
    busRead s 0x00002#20 = (if s.win then 0x0001#16 else 0x0000#16) ∧
    busRead s 0x00003#20 = s.crc ∧
    busRead s 0x00004#20 = BitVec.ofNat 16 s.rx.length ∧
    busRead s 0x00005#20 = BitVec.ofNat 16 s.tx.length ∧
    busRead s 0x00006#20 = BitVec.ofNat 16 s.stage.length ∧
    busRead s 0x00007#20 = BitVec.ofNat 16 s.pl.length ∧
    busRead s 0x00008#20 = s.consumed ∧ busRead s 0x00009#20 = s.skip ∧
    (∀ a : BusAddr, 0x0000A ≤ a.toNat → a.toNat < 0x10000 → busRead s a = 0x0000#16) ∧
    (∀ a : BusAddr, 0x50000 ≤ a.toNat → busRead s a = 0x0000#16) ∧
    (∀ i : Nat, i < 65536 →
      busRead s (BitVec.ofNat 20 (0x10000 + i)) = ((s.pl[i]?).getD 0#8).setWidth 16 ∧
      busRead s (BitVec.ofNat 20 (0x20000 + i)) = ((s.rx[i]?).getD 0#8).setWidth 16 ∧
      busRead s (BitVec.ofNat 20 (0x30000 + i)) = ((s.stage[i]?).getD 0#8).setWidth 16 ∧
      busRead s (BitVec.ofNat 20 (0x40000 + i)) = ((s.tx[i]?).getD 0#8).setWidth 16)

/-- The fields of STATUS, the reserved bits [15:11] reading 0 (10_state.md R30), with the number that
each result code (60_exceptions.md R221) and each phase (10_state.md R27) reads as. -/
def Obligations.StatusFieldsReadBack : Prop :=
  ∀ s : State,
    ((statusWord s).extractLsb' 0 3 = s.res.code ∧
      (statusWord s).extractLsb' 3 2 = s.phase.code ∧
      (statusWord s).getLsbD 5 = s.eos ∧ (statusWord s).getLsbD 6 = s.ovf ∧
      (statusWord s).getLsbD 7 = s.sovf ∧ (statusWord s).getLsbD 8 = s.ill ∧
      (statusWord s).extractLsb' 9 2 = s.cand ∧ (statusWord s).extractLsb' 11 5 = 0#5) ∧
    ((s.res = .none → (statusWord s).extractLsb' 0 3 = 0#3) ∧
      (s.res = .incomplete → (statusWord s).extractLsb' 0 3 = 1#3) ∧
      (s.res = .frame → (statusWord s).extractLsb' 0 3 = 2#3) ∧
      (s.res = .errFraming → (statusWord s).extractLsb' 0 3 = 3#3) ∧
      (s.res = .errCrc → (statusWord s).extractLsb' 0 3 = 4#3) ∧
      (s.res = .errEof → (statusWord s).extractLsb' 0 3 = 5#3) ∧
      (s.res = .errIo → (statusWord s).extractLsb' 0 3 = 6#3) ∧
      (s.res = .errOvf → (statusWord s).extractLsb' 0 3 = 7#3)) ∧
    ((s.phase = .idle → (statusWord s).extractLsb' 3 2 = 0#2) ∧
      (s.phase = .tx → (statusWord s).extractLsb' 3 2 = 1#2) ∧
      (s.phase = .await → (statusWord s).extractLsb' 3 2 = 2#2))

/-- No count wraps: the length registers read the exact lengths, and an extraction or an overflow
writes the exact numbers (10_state.md R39; 40_crc.md R110). -/
def Obligations.CountsNeverWrap : Prop :=
  ∀ s : State, s.Inv →
    (busRead s 0x00004#20).toNat = s.rx.length ∧ (busRead s 0x00005#20).toNat = s.tx.length ∧
    (busRead s 0x00006#20).toNat = s.stage.length ∧ (busRead s 0x00007#20).toNat = s.pl.length ∧
    (∀ f w, (BitVec.ofNat 16 (extract s.rx f w).n).toNat = (extract s.rx f w).n ∧
      (BitVec.ofNat 16 (extract s.rx f w).k).toNat = (extract s.rx f w).k ∧
      (BitVec.ofNat 2 (extract s.rx f w).i).toNat = (extract s.rx f w).i)
end

