-- ==== Sys2Proof/Laws/Extract.lean ====
section
/-! SUPPORT. What the searches, the probes and the extraction function can answer. -/

namespace Sys2Proof.Machine

/-! ### The search -/

@[simp] theorem first_nil (v : Byte) : first [] v = none := rfl

theorem first_cons (x : Byte) (rest : List Byte) (v : Byte) :
    first (x :: rest) v = if x = v then some 0 else (first rest v).map (· + 1) := rfl

@[simp] theorem byteAt_zero (x : Byte) (rest : List Byte) : byteAt (x :: rest) 0 = x := rfl

@[simp] theorem byteAt_succ (x : Byte) (rest : List Byte) (i : Nat) :
    byteAt (x :: rest) (i + 1) = byteAt rest i := rfl

/-- The index found lies in the sequence and holds the value. -/
theorem first_some {b : List Byte} {v : Byte} {i : Nat} (h : first b v = some i) :
    i < b.length ∧ byteAt b i = v := by
  induction b generalizing i with
  | nil => simp at h
  | cons x rest ih =>
    rw [first_cons] at h
    split at h
    · next hx => cases h; simp [hx]
    · obtain ⟨j, hj, rfl⟩ := Option.map_eq_some_iff.mp h
      simpa using ih hj

/-- No value is found exactly when it does not occur. -/
theorem first_eq_none_iff (b : List Byte) (v : Byte) : first b v = none ↔ v ∉ b := by
  induction b with
  | nil => simp
  | cons x rest ih =>
    rw [first_cons]
    split
    · next hx => simp [hx]
    · next hx => simp [ih, Ne.symm hx]

/-- The value does not occur before the index found. -/
theorem first_take {b : List Byte} {v : Byte} {i : Nat} (h : first b v = some i) :
    v ∉ b.take i := by
  induction b generalizing i with
  | nil => simp at h
  | cons x rest ih =>
    rw [first_cons] at h
    split at h
    · cases h; simp
    · next hx =>
      obtain ⟨j, hj, rfl⟩ := Option.map_eq_some_iff.mp h
      simp [ih hj, Ne.symm hx]

/-- A value that occurs first after `a` is found there. -/
theorem first_append_of_notMem {a : List Byte} {v : Byte} (b : List Byte) (h : v ∉ a) :
    first (a ++ b) v = (first b v).map (· + a.length) := by
  induction a with
  | nil => simp
  | cons x rest ih =>
    simp only [List.mem_cons, not_or] at h
    rw [List.cons_append, first_cons, if_neg (Ne.symm h.1), ih h.2, Option.map_map]
    congr 1

/-- An index found stays the first when bytes are appended. -/
theorem first_append_some {a : List Byte} {v : Byte} {i : Nat} (b : List Byte)
    (h : first a v = some i) : first (a ++ b) v = some i := by
  induction a generalizing i with
  | nil => simp at h
  | cons x rest ih =>
    rw [first_cons] at h
    rw [List.cons_append, first_cons]
    split at h
    · next hx => rw [if_pos hx]; exact h
    · next hx =>
      obtain ⟨j, hj, rfl⟩ := Option.map_eq_some_iff.mp h
      rw [if_neg hx, ih hj]; rfl

/-- The length of `b[i..j]` inside `b`. -/
theorem slice_length (b : List Byte) {i j : Nat} (h : j < b.length) :
    (slice b i j).length = j + 1 - i := by
  simp only [slice, List.length_drop, List.length_take]
  omega

/-! ### The probes -/

/-- All that the probes from stop position `p` and start byte `s` can answer. -/
theorem probe_cases (b : List Byte) (final w : Bool) (s p : Nat) (is : List Nat) (last : Nat) :
    (final = false ∧ (∃ i ∈ is, b.length ≤ p + i) ∧
        probe b final w s p is last = Extraction.incomplete) ∨
    (final = true ∧ (∃ i ∈ is, b.length ≤ p + i) ∧
        probe b final w s p is last = Extraction.crcError b.length s) ∨
    (∃ i ∈ is, p + i < b.length ∧ byteAt b (p + i) = stopByte ∧
        candidatePasses b w s (p + i) = true ∧
        probe b final w s p is last = Extraction.accept b s (p + i) i) ∨
    (∃ l, (l = last ∨ ∃ i ∈ is, l = p + i ∧ p + i < b.length ∧ byteAt b (p + i) = stopByte) ∧
        probe b final w s p is last = Extraction.crcError (l + 1) s) := by
  induction is generalizing last with
  | nil => exact .inr (.inr (.inr ⟨last, .inl rfl, rfl⟩))
  | cons i rest ih =>
    unfold probe
    split
    · next hlen =>
      cases final
      · exact .inl ⟨rfl, ⟨i, by simp, hlen⟩, rfl⟩
      · exact .inr (.inl ⟨rfl, ⟨i, by simp, hlen⟩, rfl⟩)
    · next hlen =>
      split
      · next hstop =>
        split
        · next hpass => exact .inr (.inr (.inl ⟨i, by simp, by omega, hstop, hpass, rfl⟩))
        · rcases ih (p + i) with ⟨h1, ⟨j, hj, h2⟩, h3⟩ | ⟨h1, ⟨j, hj, h2⟩, h3⟩ | ⟨j, hj, h⟩ |
            ⟨l, hl, h⟩
          · exact .inl ⟨h1, ⟨j, by simp [hj], h2⟩, h3⟩
          · exact .inr (.inl ⟨h1, ⟨j, by simp [hj], h2⟩, h3⟩)
          · exact .inr (.inr (.inl ⟨j, by simp [hj], h⟩))
          · refine .inr (.inr (.inr ⟨l, .inr ?_, h⟩))
            rcases hl with rfl | ⟨j, hj, hl⟩
            · exact ⟨i, by simp, rfl, by omega, hstop⟩
            · exact ⟨j, by simp [hj], hl⟩
      · rcases ih last with ⟨h1, ⟨j, hj, h2⟩, h3⟩ | ⟨h1, ⟨j, hj, h2⟩, h3⟩ | ⟨j, hj, h⟩ | ⟨l, hl, h⟩
        · exact .inl ⟨h1, ⟨j, by simp [hj], h2⟩, h3⟩
        · exact .inr (.inl ⟨h1, ⟨j, by simp [hj], h2⟩, h3⟩)
        · exact .inr (.inr (.inl ⟨j, by simp [hj], h⟩))
        · refine .inr (.inr (.inr ⟨l, ?_, h⟩))
          rcases hl with rfl | ⟨j, hj, hl⟩
          · exact .inl rfl
          · exact .inr ⟨j, by simp [hj], hl⟩

/-! ### The extraction -/

/-- The start byte found in the item lies before the stop byte. -/
theorem start_lt_stop {b : List Byte} {p s : Nat}
    (hs : first (b.take p) startByte = some s) : s < p := by
  have h := (first_some hs).1
  simp only [List.length_take] at h
  omega

/-- All that an extraction can answer (41_extractor.md R121, R123). -/
theorem extract_cases (b : List Byte) (final w : Bool) :
    extract b final w = Extraction.incomplete ∨
    (∃ p, first b stopByte = some p ∧ first (b.take p) startByte = none ∧
        extract b final w = Extraction.framingError p) ∨
    (∃ p s i, first b stopByte = some p ∧ first (b.take p) startByte = some s ∧ i ≤ 2 ∧
        p + i < b.length ∧ byteAt b (p + i) = stopByte ∧ candidatePasses b w s (p + i) = true ∧
        extract b final w = Extraction.accept b s (p + i) i) ∨
    (∃ p s n, first b stopByte = some p ∧ first (b.take p) startByte = some s ∧
        p < n ∧ n ≤ b.length ∧ extract b final w = Extraction.crcError n s) := by
  unfold extract
  split
  · exact .inl rfl
  · next p hp =>
    split
    · next hs => exact .inr (.inl ⟨p, hp, hs, rfl⟩)
    · next s hs =>
      have hlt := (first_some hp).1
      rcases probe_cases b final w s p [0, 1, 2] p with ⟨_, _, h⟩ | ⟨_, ⟨i, hi, hl⟩, h⟩ |
        ⟨i, hi, hq, hstop, hpass, h⟩ | ⟨l, hl, h⟩
      · exact .inl h
      · exact .inr (.inr (.inr ⟨p, s, b.length, hp, hs, hlt, le_rfl, h⟩))
      · refine .inr (.inr (.inl ⟨p, s, i, hp, hs, ?_, hq, hstop, hpass, h⟩))
        simp only [List.mem_cons, List.not_mem_nil, or_false] at hi
        omega
      · refine .inr (.inr (.inr ⟨p, s, l + 1, hp, hs, ?_, ?_, h⟩))
        · rcases hl with rfl | ⟨i, _, rfl, _, _⟩ <;> omega
        · rcases hl with rfl | ⟨i, _, rfl, hq, _⟩ <;> omega

/-- The sizes of an extraction's answer: nothing past the end is removed, the discard length and the
candidate index are in range, and a frame's payload leaves room for the four other bytes. -/
theorem extract_bounds (b : List Byte) (final w : Bool) :
    (extract b final w).n ≤ b.length ∧ (extract b final w).k ≤ b.length ∧
    (extract b final w).i ≤ 2 ∧
    ((extract b final w).out = .frame → (extract b final w).pay.length + 4 ≤ b.length) ∧
    ((extract b final w).out ≠ .frame → (extract b final w).pay = [] ∧ (extract b final w).i = 0) ∧
    ((extract b final w).out = .incomplete → (extract b final w).n = 0) := by
  rcases extract_cases b final w with h | ⟨p, hp, _, h⟩ | ⟨p, s, i, hp, hs, hi, hq, _, hpass, h⟩ |
    ⟨p, s, n, hp, hs, _, hn, h⟩
  · rw [h]; simp [Extraction.incomplete]
  · rw [h]
    have := (first_some hp).1
    simp [Extraction.framingError]
    omega
  · rw [h]
    have hsp := start_lt_stop hs
    have h3 : 3 ≤ p + i - s := by
      simp only [candidatePasses, Bool.and_eq_true, decide_eq_true_eq] at hpass
      exact hpass.1
    simp only [Extraction.accept, reduceCtorEq, ne_eq, not_true_eq_false, false_implies, and_true,
      forall_const]
    rw [slice_length b (by omega)]
    omega
  · rw [h]
    have := start_lt_stop hs
    simp [Extraction.crcError]
    omega

end Sys2Proof.Machine
end

