-- ==== Sys2Proof/Laws/State.lean ====
section
/-! SUPPORT. One lemma for each field after each update of the state, true by rfl, so that no later
proof unfolds a record update. -/

namespace Sys2Proof.Machine

variable (s : State)

/-! ### raiseIll -/

@[simp] theorem raiseIll_crc : (raiseIll s).crc = s.crc := rfl
@[simp] theorem raiseIll_win : (raiseIll s).win = s.win := rfl
@[simp] theorem raiseIll_stage : (raiseIll s).stage = s.stage := rfl
@[simp] theorem raiseIll_tx : (raiseIll s).tx = s.tx := rfl
@[simp] theorem raiseIll_rx : (raiseIll s).rx = s.rx := rfl
@[simp] theorem raiseIll_pl : (raiseIll s).pl = s.pl := rfl
@[simp] theorem raiseIll_phase : (raiseIll s).phase = s.phase := rfl
@[simp] theorem raiseIll_res : (raiseIll s).res = s.res := rfl
@[simp] theorem raiseIll_eos : (raiseIll s).eos = s.eos := rfl
@[simp] theorem raiseIll_ovf : (raiseIll s).ovf = s.ovf := rfl
@[simp] theorem raiseIll_sovf : (raiseIll s).sovf = s.sovf := rfl
@[simp] theorem raiseIll_ill : (raiseIll s).ill = true := rfl
@[simp] theorem raiseIll_cand : (raiseIll s).cand = s.cand := rfl
@[simp] theorem raiseIll_consumed : (raiseIll s).consumed = s.consumed := rfl
@[simp] theorem raiseIll_skip : (raiseIll s).skip = s.skip := rfl
@[simp] theorem raiseIll_params : (raiseIll s).params = s.params := rfl
@[simp] theorem raiseIll_pending : (raiseIll s).pending = s.pending := rfl
@[simp] theorem raiseIll_emitted : (raiseIll s).emitted = s.emitted := rfl
@[simp] theorem raiseIll_answers : (raiseIll s).answers = s.answers := rfl

/-! ### clearStickyFlags -/

@[simp] theorem clearStickyFlags_crc : (clearStickyFlags s).crc = s.crc := rfl
@[simp] theorem clearStickyFlags_win : (clearStickyFlags s).win = s.win := rfl
@[simp] theorem clearStickyFlags_stage : (clearStickyFlags s).stage = s.stage := rfl
@[simp] theorem clearStickyFlags_tx : (clearStickyFlags s).tx = s.tx := rfl
@[simp] theorem clearStickyFlags_rx : (clearStickyFlags s).rx = s.rx := rfl
@[simp] theorem clearStickyFlags_pl : (clearStickyFlags s).pl = s.pl := rfl
@[simp] theorem clearStickyFlags_phase : (clearStickyFlags s).phase = s.phase := rfl
@[simp] theorem clearStickyFlags_res : (clearStickyFlags s).res = s.res := rfl
@[simp] theorem clearStickyFlags_eos : (clearStickyFlags s).eos = s.eos := rfl
@[simp] theorem clearStickyFlags_ovf : (clearStickyFlags s).ovf = false := rfl
@[simp] theorem clearStickyFlags_sovf : (clearStickyFlags s).sovf = false := rfl
@[simp] theorem clearStickyFlags_ill : (clearStickyFlags s).ill = false := rfl
@[simp] theorem clearStickyFlags_cand : (clearStickyFlags s).cand = s.cand := rfl
@[simp] theorem clearStickyFlags_consumed : (clearStickyFlags s).consumed = s.consumed := rfl
@[simp] theorem clearStickyFlags_skip : (clearStickyFlags s).skip = s.skip := rfl
@[simp] theorem clearStickyFlags_params : (clearStickyFlags s).params = s.params := rfl
@[simp] theorem clearStickyFlags_pending : (clearStickyFlags s).pending = s.pending := rfl
@[simp] theorem clearStickyFlags_emitted : (clearStickyFlags s).emitted = s.emitted := rfl
@[simp] theorem clearStickyFlags_answers : (clearStickyFlags s).answers = s.answers := rfl

/-! ### markEndOfStream -/

@[simp] theorem markEndOfStream_crc : (markEndOfStream s).crc = s.crc := rfl
@[simp] theorem markEndOfStream_win : (markEndOfStream s).win = s.win := rfl
@[simp] theorem markEndOfStream_stage : (markEndOfStream s).stage = s.stage := rfl
@[simp] theorem markEndOfStream_tx : (markEndOfStream s).tx = s.tx := rfl
@[simp] theorem markEndOfStream_rx : (markEndOfStream s).rx = s.rx := rfl
@[simp] theorem markEndOfStream_pl : (markEndOfStream s).pl = s.pl := rfl
@[simp] theorem markEndOfStream_phase : (markEndOfStream s).phase = s.phase := rfl
@[simp] theorem markEndOfStream_res : (markEndOfStream s).res = s.res := rfl
@[simp] theorem markEndOfStream_eos : (markEndOfStream s).eos = true := rfl
@[simp] theorem markEndOfStream_ovf : (markEndOfStream s).ovf = s.ovf := rfl
@[simp] theorem markEndOfStream_sovf : (markEndOfStream s).sovf = s.sovf := rfl
@[simp] theorem markEndOfStream_ill : (markEndOfStream s).ill = s.ill := rfl
@[simp] theorem markEndOfStream_cand : (markEndOfStream s).cand = s.cand := rfl
@[simp] theorem markEndOfStream_consumed : (markEndOfStream s).consumed = s.consumed := rfl
@[simp] theorem markEndOfStream_skip : (markEndOfStream s).skip = s.skip := rfl
@[simp] theorem markEndOfStream_params : (markEndOfStream s).params = s.params := rfl
@[simp] theorem markEndOfStream_pending : (markEndOfStream s).pending = s.pending := rfl
@[simp] theorem markEndOfStream_emitted : (markEndOfStream s).emitted = s.emitted := rfl
@[simp] theorem markEndOfStream_answers : (markEndOfStream s).answers = s.answers := rfl

/-! ### markStageOverflow -/

@[simp] theorem markStageOverflow_crc : (markStageOverflow s).crc = s.crc := rfl
@[simp] theorem markStageOverflow_win : (markStageOverflow s).win = s.win := rfl
@[simp] theorem markStageOverflow_stage : (markStageOverflow s).stage = s.stage := rfl
@[simp] theorem markStageOverflow_tx : (markStageOverflow s).tx = s.tx := rfl
@[simp] theorem markStageOverflow_rx : (markStageOverflow s).rx = s.rx := rfl
@[simp] theorem markStageOverflow_pl : (markStageOverflow s).pl = s.pl := rfl
@[simp] theorem markStageOverflow_phase : (markStageOverflow s).phase = s.phase := rfl
@[simp] theorem markStageOverflow_res : (markStageOverflow s).res = s.res := rfl
@[simp] theorem markStageOverflow_eos : (markStageOverflow s).eos = s.eos := rfl
@[simp] theorem markStageOverflow_ovf : (markStageOverflow s).ovf = s.ovf := rfl
@[simp] theorem markStageOverflow_sovf : (markStageOverflow s).sovf = true := rfl
@[simp] theorem markStageOverflow_ill : (markStageOverflow s).ill = s.ill := rfl
@[simp] theorem markStageOverflow_cand : (markStageOverflow s).cand = s.cand := rfl
@[simp] theorem markStageOverflow_consumed : (markStageOverflow s).consumed = s.consumed := rfl
@[simp] theorem markStageOverflow_skip : (markStageOverflow s).skip = s.skip := rfl
@[simp] theorem markStageOverflow_params : (markStageOverflow s).params = s.params := rfl
@[simp] theorem markStageOverflow_pending : (markStageOverflow s).pending = s.pending := rfl
@[simp] theorem markStageOverflow_emitted : (markStageOverflow s).emitted = s.emitted := rfl
@[simp] theorem markStageOverflow_answers : (markStageOverflow s).answers = s.answers := rfl

/-! ### setCrc -/

@[simp] theorem setCrc_crc (c : Word) : (setCrc c s).crc = c := rfl
@[simp] theorem setCrc_win (c : Word) : (setCrc c s).win = s.win := rfl
@[simp] theorem setCrc_stage (c : Word) : (setCrc c s).stage = s.stage := rfl
@[simp] theorem setCrc_tx (c : Word) : (setCrc c s).tx = s.tx := rfl
@[simp] theorem setCrc_rx (c : Word) : (setCrc c s).rx = s.rx := rfl
@[simp] theorem setCrc_pl (c : Word) : (setCrc c s).pl = s.pl := rfl
@[simp] theorem setCrc_phase (c : Word) : (setCrc c s).phase = s.phase := rfl
@[simp] theorem setCrc_res (c : Word) : (setCrc c s).res = s.res := rfl
@[simp] theorem setCrc_eos (c : Word) : (setCrc c s).eos = s.eos := rfl
@[simp] theorem setCrc_ovf (c : Word) : (setCrc c s).ovf = s.ovf := rfl
@[simp] theorem setCrc_sovf (c : Word) : (setCrc c s).sovf = s.sovf := rfl
@[simp] theorem setCrc_ill (c : Word) : (setCrc c s).ill = s.ill := rfl
@[simp] theorem setCrc_cand (c : Word) : (setCrc c s).cand = s.cand := rfl
@[simp] theorem setCrc_consumed (c : Word) : (setCrc c s).consumed = s.consumed := rfl
@[simp] theorem setCrc_skip (c : Word) : (setCrc c s).skip = s.skip := rfl
@[simp] theorem setCrc_params (c : Word) : (setCrc c s).params = s.params := rfl
@[simp] theorem setCrc_pending (c : Word) : (setCrc c s).pending = s.pending := rfl
@[simp] theorem setCrc_emitted (c : Word) : (setCrc c s).emitted = s.emitted := rfl
@[simp] theorem setCrc_answers (c : Word) : (setCrc c s).answers = s.answers := rfl

/-! ### setWindow -/

@[simp] theorem setWindow_crc (w : Bool) : (setWindow w s).crc = s.crc := rfl
@[simp] theorem setWindow_win (w : Bool) : (setWindow w s).win = w := rfl
@[simp] theorem setWindow_stage (w : Bool) : (setWindow w s).stage = s.stage := rfl
@[simp] theorem setWindow_tx (w : Bool) : (setWindow w s).tx = s.tx := rfl
@[simp] theorem setWindow_rx (w : Bool) : (setWindow w s).rx = s.rx := rfl
@[simp] theorem setWindow_pl (w : Bool) : (setWindow w s).pl = s.pl := rfl
@[simp] theorem setWindow_phase (w : Bool) : (setWindow w s).phase = s.phase := rfl
@[simp] theorem setWindow_res (w : Bool) : (setWindow w s).res = s.res := rfl
@[simp] theorem setWindow_eos (w : Bool) : (setWindow w s).eos = s.eos := rfl
@[simp] theorem setWindow_ovf (w : Bool) : (setWindow w s).ovf = s.ovf := rfl
@[simp] theorem setWindow_sovf (w : Bool) : (setWindow w s).sovf = s.sovf := rfl
@[simp] theorem setWindow_ill (w : Bool) : (setWindow w s).ill = s.ill := rfl
@[simp] theorem setWindow_cand (w : Bool) : (setWindow w s).cand = s.cand := rfl
@[simp] theorem setWindow_consumed (w : Bool) : (setWindow w s).consumed = s.consumed := rfl
@[simp] theorem setWindow_skip (w : Bool) : (setWindow w s).skip = s.skip := rfl
@[simp] theorem setWindow_params (w : Bool) : (setWindow w s).params = s.params := rfl
@[simp] theorem setWindow_pending (w : Bool) : (setWindow w s).pending = s.pending := rfl
@[simp] theorem setWindow_emitted (w : Bool) : (setWindow w s).emitted = s.emitted := rfl
@[simp] theorem setWindow_answers (w : Bool) : (setWindow w s).answers = s.answers := rfl

/-! ### clearStage -/

@[simp] theorem clearStage_crc : (clearStage s).crc = s.crc := rfl
@[simp] theorem clearStage_win : (clearStage s).win = s.win := rfl
@[simp] theorem clearStage_stage : (clearStage s).stage = [] := rfl
@[simp] theorem clearStage_tx : (clearStage s).tx = s.tx := rfl
@[simp] theorem clearStage_rx : (clearStage s).rx = s.rx := rfl
@[simp] theorem clearStage_pl : (clearStage s).pl = s.pl := rfl
@[simp] theorem clearStage_phase : (clearStage s).phase = s.phase := rfl
@[simp] theorem clearStage_res : (clearStage s).res = s.res := rfl
@[simp] theorem clearStage_eos : (clearStage s).eos = s.eos := rfl
@[simp] theorem clearStage_ovf : (clearStage s).ovf = s.ovf := rfl
@[simp] theorem clearStage_sovf : (clearStage s).sovf = s.sovf := rfl
@[simp] theorem clearStage_ill : (clearStage s).ill = s.ill := rfl
@[simp] theorem clearStage_cand : (clearStage s).cand = s.cand := rfl
@[simp] theorem clearStage_consumed : (clearStage s).consumed = s.consumed := rfl
@[simp] theorem clearStage_skip : (clearStage s).skip = s.skip := rfl
@[simp] theorem clearStage_params : (clearStage s).params = s.params := rfl
@[simp] theorem clearStage_pending : (clearStage s).pending = s.pending := rfl
@[simp] theorem clearStage_emitted : (clearStage s).emitted = s.emitted := rfl
@[simp] theorem clearStage_answers : (clearStage s).answers = s.answers := rfl

/-! ### storeStaged -/

@[simp] theorem storeStaged_crc (b : Byte) : (storeStaged b s).crc = s.crc := rfl
@[simp] theorem storeStaged_win (b : Byte) : (storeStaged b s).win = s.win := rfl
@[simp] theorem storeStaged_stage (b : Byte) : (storeStaged b s).stage = s.stage ++ [b] := rfl
@[simp] theorem storeStaged_tx (b : Byte) : (storeStaged b s).tx = s.tx := rfl
@[simp] theorem storeStaged_rx (b : Byte) : (storeStaged b s).rx = s.rx := rfl
@[simp] theorem storeStaged_pl (b : Byte) : (storeStaged b s).pl = s.pl := rfl
@[simp] theorem storeStaged_phase (b : Byte) : (storeStaged b s).phase = s.phase := rfl
@[simp] theorem storeStaged_res (b : Byte) : (storeStaged b s).res = s.res := rfl
@[simp] theorem storeStaged_eos (b : Byte) : (storeStaged b s).eos = s.eos := rfl
@[simp] theorem storeStaged_ovf (b : Byte) : (storeStaged b s).ovf = s.ovf := rfl
@[simp] theorem storeStaged_sovf (b : Byte) : (storeStaged b s).sovf = s.sovf := rfl
@[simp] theorem storeStaged_ill (b : Byte) : (storeStaged b s).ill = s.ill := rfl
@[simp] theorem storeStaged_cand (b : Byte) : (storeStaged b s).cand = s.cand := rfl
@[simp] theorem storeStaged_consumed (b : Byte) : (storeStaged b s).consumed = s.consumed := rfl
@[simp] theorem storeStaged_skip (b : Byte) : (storeStaged b s).skip = s.skip := rfl
@[simp] theorem storeStaged_params (b : Byte) : (storeStaged b s).params = s.params := rfl
@[simp] theorem storeStaged_pending (b : Byte) : (storeStaged b s).pending = s.pending := rfl
@[simp] theorem storeStaged_emitted (b : Byte) : (storeStaged b s).emitted = s.emitted := rfl
@[simp] theorem storeStaged_answers (b : Byte) : (storeStaged b s).answers = s.answers := rfl

/-! ### storeReceived -/

@[simp] theorem storeReceived_crc (d : Byte) : (storeReceived d s).crc = s.crc := rfl
@[simp] theorem storeReceived_win (d : Byte) : (storeReceived d s).win = s.win := rfl
@[simp] theorem storeReceived_stage (d : Byte) : (storeReceived d s).stage = s.stage := rfl
@[simp] theorem storeReceived_tx (d : Byte) : (storeReceived d s).tx = s.tx := rfl
@[simp] theorem storeReceived_rx (d : Byte) : (storeReceived d s).rx = s.rx ++ [d] := rfl
@[simp] theorem storeReceived_pl (d : Byte) : (storeReceived d s).pl = s.pl := rfl
@[simp] theorem storeReceived_phase (d : Byte) : (storeReceived d s).phase = s.phase := rfl
@[simp] theorem storeReceived_res (d : Byte) : (storeReceived d s).res = s.res := rfl
@[simp] theorem storeReceived_eos (d : Byte) : (storeReceived d s).eos = s.eos := rfl
@[simp] theorem storeReceived_ovf (d : Byte) : (storeReceived d s).ovf = s.ovf := rfl
@[simp] theorem storeReceived_sovf (d : Byte) : (storeReceived d s).sovf = s.sovf := rfl
@[simp] theorem storeReceived_ill (d : Byte) : (storeReceived d s).ill = s.ill := rfl
@[simp] theorem storeReceived_cand (d : Byte) : (storeReceived d s).cand = s.cand := rfl
@[simp] theorem storeReceived_consumed (d : Byte) : (storeReceived d s).consumed = s.consumed := rfl
@[simp] theorem storeReceived_skip (d : Byte) : (storeReceived d s).skip = s.skip := rfl
@[simp] theorem storeReceived_params (d : Byte) : (storeReceived d s).params = s.params := rfl
@[simp] theorem storeReceived_pending (d : Byte) : (storeReceived d s).pending = s.pending := rfl
@[simp] theorem storeReceived_emitted (d : Byte) : (storeReceived d s).emitted = s.emitted := rfl
@[simp] theorem storeReceived_answers (d : Byte) : (storeReceived d s).answers = s.answers := rfl

/-! ### dropPayload -/

@[simp] theorem dropPayload_crc : (dropPayload s).crc = s.crc := rfl
@[simp] theorem dropPayload_win : (dropPayload s).win = s.win := rfl
@[simp] theorem dropPayload_stage : (dropPayload s).stage = s.stage := rfl
@[simp] theorem dropPayload_tx : (dropPayload s).tx = s.tx := rfl
@[simp] theorem dropPayload_rx : (dropPayload s).rx = s.rx := rfl
@[simp] theorem dropPayload_pl : (dropPayload s).pl = [] := rfl
@[simp] theorem dropPayload_phase : (dropPayload s).phase = s.phase := rfl
@[simp] theorem dropPayload_res : (dropPayload s).res = s.res := rfl
@[simp] theorem dropPayload_eos : (dropPayload s).eos = s.eos := rfl
@[simp] theorem dropPayload_ovf : (dropPayload s).ovf = s.ovf := rfl
@[simp] theorem dropPayload_sovf : (dropPayload s).sovf = s.sovf := rfl
@[simp] theorem dropPayload_ill : (dropPayload s).ill = s.ill := rfl
@[simp] theorem dropPayload_cand : (dropPayload s).cand = s.cand := rfl
@[simp] theorem dropPayload_consumed : (dropPayload s).consumed = s.consumed := rfl
@[simp] theorem dropPayload_skip : (dropPayload s).skip = s.skip := rfl
@[simp] theorem dropPayload_params : (dropPayload s).params = s.params := rfl
@[simp] theorem dropPayload_pending : (dropPayload s).pending = s.pending := rfl
@[simp] theorem dropPayload_emitted : (dropPayload s).emitted = s.emitted := rfl
@[simp] theorem dropPayload_answers : (dropPayload s).answers = s.answers := rfl

/-! ### endExchange -/

@[simp] theorem endExchange_crc (c : ResCode) : (endExchange c s).crc = s.crc := rfl
@[simp] theorem endExchange_win (c : ResCode) : (endExchange c s).win = s.win := rfl
@[simp] theorem endExchange_stage (c : ResCode) : (endExchange c s).stage = s.stage := rfl
@[simp] theorem endExchange_tx (c : ResCode) : (endExchange c s).tx = s.tx := rfl
@[simp] theorem endExchange_rx (c : ResCode) : (endExchange c s).rx = s.rx := rfl
@[simp] theorem endExchange_pl (c : ResCode) : (endExchange c s).pl = s.pl := rfl
@[simp] theorem endExchange_phase (c : ResCode) : (endExchange c s).phase = .idle := rfl
@[simp] theorem endExchange_res (c : ResCode) : (endExchange c s).res = c := rfl
@[simp] theorem endExchange_eos (c : ResCode) : (endExchange c s).eos = s.eos := rfl
@[simp] theorem endExchange_ovf (c : ResCode) : (endExchange c s).ovf = s.ovf := rfl
@[simp] theorem endExchange_sovf (c : ResCode) : (endExchange c s).sovf = s.sovf := rfl
@[simp] theorem endExchange_ill (c : ResCode) : (endExchange c s).ill = s.ill := rfl
@[simp] theorem endExchange_cand (c : ResCode) : (endExchange c s).cand = s.cand := rfl
@[simp] theorem endExchange_consumed (c : ResCode) : (endExchange c s).consumed = s.consumed := rfl
@[simp] theorem endExchange_skip (c : ResCode) : (endExchange c s).skip = s.skip := rfl
@[simp] theorem endExchange_params (c : ResCode) : (endExchange c s).params = s.params := rfl
@[simp] theorem endExchange_pending (c : ResCode) : (endExchange c s).pending = s.pending := rfl
@[simp] theorem endExchange_emitted (c : ResCode) : (endExchange c s).emitted = s.emitted := rfl
@[simp] theorem endExchange_answers (c : ResCode) : (endExchange c s).answers = s.answers := rfl

/-! ### emitFront -/

@[simp] theorem emitFront_crc (b : Byte) (rest : List Byte) : (emitFront b rest s).crc = s.crc := rfl
@[simp] theorem emitFront_win (b : Byte) (rest : List Byte) : (emitFront b rest s).win = s.win := rfl
@[simp] theorem emitFront_stage (b : Byte) (rest : List Byte) : (emitFront b rest s).stage = s.stage := rfl
@[simp] theorem emitFront_tx (b : Byte) (rest : List Byte) : (emitFront b rest s).tx = rest := rfl
@[simp] theorem emitFront_rx (b : Byte) (rest : List Byte) : (emitFront b rest s).rx = s.rx := rfl
@[simp] theorem emitFront_pl (b : Byte) (rest : List Byte) : (emitFront b rest s).pl = s.pl := rfl
@[simp] theorem emitFront_phase (b : Byte) (rest : List Byte) : (emitFront b rest s).phase = s.phase := rfl
@[simp] theorem emitFront_res (b : Byte) (rest : List Byte) : (emitFront b rest s).res = s.res := rfl
@[simp] theorem emitFront_eos (b : Byte) (rest : List Byte) : (emitFront b rest s).eos = s.eos := rfl
@[simp] theorem emitFront_ovf (b : Byte) (rest : List Byte) : (emitFront b rest s).ovf = s.ovf := rfl
@[simp] theorem emitFront_sovf (b : Byte) (rest : List Byte) : (emitFront b rest s).sovf = s.sovf := rfl
@[simp] theorem emitFront_ill (b : Byte) (rest : List Byte) : (emitFront b rest s).ill = s.ill := rfl
@[simp] theorem emitFront_cand (b : Byte) (rest : List Byte) : (emitFront b rest s).cand = s.cand := rfl
@[simp] theorem emitFront_consumed (b : Byte) (rest : List Byte) : (emitFront b rest s).consumed = s.consumed := rfl
@[simp] theorem emitFront_skip (b : Byte) (rest : List Byte) : (emitFront b rest s).skip = s.skip := rfl
@[simp] theorem emitFront_params (b : Byte) (rest : List Byte) : (emitFront b rest s).params = s.params := rfl
@[simp] theorem emitFront_pending (b : Byte) (rest : List Byte) : (emitFront b rest s).pending = s.pending := rfl
@[simp] theorem emitFront_emitted (b : Byte) (rest : List Byte) : (emitFront b rest s).emitted = s.emitted ++ [b] := rfl
@[simp] theorem emitFront_answers (b : Byte) (rest : List Byte) : (emitFront b rest s).answers = s.answers := rfl

/-! ### applyExtraction -/

@[simp] theorem applyExtraction_crc (r : Extraction) : (applyExtraction r s).crc = s.crc := rfl
@[simp] theorem applyExtraction_win (r : Extraction) : (applyExtraction r s).win = s.win := rfl
@[simp] theorem applyExtraction_stage (r : Extraction) : (applyExtraction r s).stage = s.stage := rfl
@[simp] theorem applyExtraction_tx (r : Extraction) : (applyExtraction r s).tx = s.tx := rfl
@[simp] theorem applyExtraction_rx (r : Extraction) : (applyExtraction r s).rx = s.rx.drop r.n := rfl
@[simp] theorem applyExtraction_pl (r : Extraction) : (applyExtraction r s).pl = if r.out = .frame then r.pay else s.pl := rfl
@[simp] theorem applyExtraction_phase (r : Extraction) : (applyExtraction r s).phase = s.phase := rfl
@[simp] theorem applyExtraction_res (r : Extraction) : (applyExtraction r s).res = r.out.resCode := rfl
@[simp] theorem applyExtraction_eos (r : Extraction) : (applyExtraction r s).eos = s.eos := rfl
@[simp] theorem applyExtraction_ovf (r : Extraction) : (applyExtraction r s).ovf = s.ovf := rfl
@[simp] theorem applyExtraction_sovf (r : Extraction) : (applyExtraction r s).sovf = s.sovf := rfl
@[simp] theorem applyExtraction_ill (r : Extraction) : (applyExtraction r s).ill = s.ill := rfl
@[simp] theorem applyExtraction_cand (r : Extraction) : (applyExtraction r s).cand = BitVec.ofNat 2 r.i := rfl
@[simp] theorem applyExtraction_consumed (r : Extraction) : (applyExtraction r s).consumed = BitVec.ofNat 16 r.n := rfl
@[simp] theorem applyExtraction_skip (r : Extraction) : (applyExtraction r s).skip = BitVec.ofNat 16 r.k := rfl
@[simp] theorem applyExtraction_params (r : Extraction) : (applyExtraction r s).params = s.params := rfl
@[simp] theorem applyExtraction_pending (r : Extraction) : (applyExtraction r s).pending = s.pending := rfl
@[simp] theorem applyExtraction_emitted (r : Extraction) : (applyExtraction r s).emitted = s.emitted := rfl
@[simp] theorem applyExtraction_answers (r : Extraction) : (applyExtraction r s).answers = s.answers := rfl

/-! ### discardReceived -/

@[simp] theorem discardReceived_crc : (discardReceived s).crc = s.crc := rfl
@[simp] theorem discardReceived_win : (discardReceived s).win = s.win := rfl
@[simp] theorem discardReceived_stage : (discardReceived s).stage = s.stage := rfl
@[simp] theorem discardReceived_tx : (discardReceived s).tx = s.tx := rfl
@[simp] theorem discardReceived_rx : (discardReceived s).rx = [] := rfl
@[simp] theorem discardReceived_pl : (discardReceived s).pl = s.pl := rfl
@[simp] theorem discardReceived_phase : (discardReceived s).phase = s.phase := rfl
@[simp] theorem discardReceived_res : (discardReceived s).res = s.res := rfl
@[simp] theorem discardReceived_eos : (discardReceived s).eos = s.eos := rfl
@[simp] theorem discardReceived_ovf : (discardReceived s).ovf = true := rfl
@[simp] theorem discardReceived_sovf : (discardReceived s).sovf = s.sovf := rfl
@[simp] theorem discardReceived_ill : (discardReceived s).ill = s.ill := rfl
@[simp] theorem discardReceived_cand : (discardReceived s).cand = 0#2 := rfl
@[simp] theorem discardReceived_consumed : (discardReceived s).consumed = lengthWord s.rx := rfl
@[simp] theorem discardReceived_skip : (discardReceived s).skip = 0#16 := rfl
@[simp] theorem discardReceived_params : (discardReceived s).params = s.params := rfl
@[simp] theorem discardReceived_pending : (discardReceived s).pending = s.pending := rfl
@[simp] theorem discardReceived_emitted : (discardReceived s).emitted = s.emitted := rfl
@[simp] theorem discardReceived_answers : (discardReceived s).answers = s.answers := rfl

/-! ### startExchange -/

@[simp] theorem startExchange_crc : (startExchange s).crc = s.crc := rfl
@[simp] theorem startExchange_win : (startExchange s).win = s.win := rfl
@[simp] theorem startExchange_stage : (startExchange s).stage = s.stage := rfl
@[simp] theorem startExchange_tx : (startExchange s).tx = frameReq s.stage := rfl
@[simp] theorem startExchange_rx : (startExchange s).rx = s.rx := rfl
@[simp] theorem startExchange_pl : (startExchange s).pl = [] := rfl
@[simp] theorem startExchange_phase : (startExchange s).phase = .tx := rfl
@[simp] theorem startExchange_res : (startExchange s).res = .none := rfl
@[simp] theorem startExchange_eos : (startExchange s).eos = s.eos := rfl
@[simp] theorem startExchange_ovf : (startExchange s).ovf = s.ovf := rfl
@[simp] theorem startExchange_sovf : (startExchange s).sovf = s.sovf := rfl
@[simp] theorem startExchange_ill : (startExchange s).ill = s.ill := rfl
@[simp] theorem startExchange_cand : (startExchange s).cand = 0#2 := rfl
@[simp] theorem startExchange_consumed : (startExchange s).consumed = 0#16 := rfl
@[simp] theorem startExchange_skip : (startExchange s).skip = 0#16 := rfl
@[simp] theorem startExchange_params : (startExchange s).params = s.params := rfl
@[simp] theorem startExchange_pending : (startExchange s).pending = s.pending := rfl
@[simp] theorem startExchange_emitted : (startExchange s).emitted = s.emitted := rfl
@[simp] theorem startExchange_answers : (startExchange s).answers = s.answers := rfl

/-! ### abandonExchange -/

@[simp] theorem abandonExchange_crc : (abandonExchange s).crc = s.crc := rfl
@[simp] theorem abandonExchange_win : (abandonExchange s).win = s.win := rfl
@[simp] theorem abandonExchange_stage : (abandonExchange s).stage = s.stage := rfl
@[simp] theorem abandonExchange_tx : (abandonExchange s).tx = [] := rfl
@[simp] theorem abandonExchange_rx : (abandonExchange s).rx = s.rx := rfl
@[simp] theorem abandonExchange_pl : (abandonExchange s).pl = s.pl := rfl
@[simp] theorem abandonExchange_phase : (abandonExchange s).phase = .idle := rfl
@[simp] theorem abandonExchange_res : (abandonExchange s).res = .errIo := rfl
@[simp] theorem abandonExchange_eos : (abandonExchange s).eos = s.eos := rfl
@[simp] theorem abandonExchange_ovf : (abandonExchange s).ovf = s.ovf := rfl
@[simp] theorem abandonExchange_sovf : (abandonExchange s).sovf = s.sovf := rfl
@[simp] theorem abandonExchange_ill : (abandonExchange s).ill = s.ill := rfl
@[simp] theorem abandonExchange_cand : (abandonExchange s).cand = s.cand := rfl
@[simp] theorem abandonExchange_consumed : (abandonExchange s).consumed = s.consumed := rfl
@[simp] theorem abandonExchange_skip : (abandonExchange s).skip = s.skip := rfl
@[simp] theorem abandonExchange_params : (abandonExchange s).params = s.params := rfl
@[simp] theorem abandonExchange_pending : (abandonExchange s).pending = s.pending := rfl
@[simp] theorem abandonExchange_emitted : (abandonExchange s).emitted = s.emitted := rfl
@[simp] theorem abandonExchange_answers : (abandonExchange s).answers = s.answers := rfl

/-! ### forfeit -/

@[simp] theorem forfeit_crc : (forfeit s).crc = s.crc := rfl
@[simp] theorem forfeit_win : (forfeit s).win = s.win := rfl
@[simp] theorem forfeit_stage : (forfeit s).stage = s.stage := rfl
@[simp] theorem forfeit_tx : (forfeit s).tx = [] := rfl
@[simp] theorem forfeit_rx : (forfeit s).rx = [] := rfl
@[simp] theorem forfeit_pl : (forfeit s).pl = [] := rfl
@[simp] theorem forfeit_phase : (forfeit s).phase = .idle := rfl
@[simp] theorem forfeit_res : (forfeit s).res = .none := rfl
@[simp] theorem forfeit_eos : (forfeit s).eos = false := rfl
@[simp] theorem forfeit_ovf : (forfeit s).ovf = s.ovf := rfl
@[simp] theorem forfeit_sovf : (forfeit s).sovf = s.sovf := rfl
@[simp] theorem forfeit_ill : (forfeit s).ill = s.ill := rfl
@[simp] theorem forfeit_cand : (forfeit s).cand = 0#2 := rfl
@[simp] theorem forfeit_consumed : (forfeit s).consumed = 0#16 := rfl
@[simp] theorem forfeit_skip : (forfeit s).skip = 0#16 := rfl
@[simp] theorem forfeit_params : (forfeit s).params = s.params := rfl
@[simp] theorem forfeit_pending : (forfeit s).pending = s.pending := rfl
@[simp] theorem forfeit_emitted : (forfeit s).emitted = s.emitted := rfl
@[simp] theorem forfeit_answers : (forfeit s).answers = s.answers := rfl

/-! ### resetBlock -/

@[simp] theorem resetBlock_crc : (resetBlock s).crc = 0#16 := rfl
@[simp] theorem resetBlock_win : (resetBlock s).win = s.params.winReset := rfl
@[simp] theorem resetBlock_stage : (resetBlock s).stage = [] := rfl
@[simp] theorem resetBlock_tx : (resetBlock s).tx = [] := rfl
@[simp] theorem resetBlock_rx : (resetBlock s).rx = [] := rfl
@[simp] theorem resetBlock_pl : (resetBlock s).pl = [] := rfl
@[simp] theorem resetBlock_phase : (resetBlock s).phase = .idle := rfl
@[simp] theorem resetBlock_res : (resetBlock s).res = .none := rfl
@[simp] theorem resetBlock_eos : (resetBlock s).eos = false := rfl
@[simp] theorem resetBlock_ovf : (resetBlock s).ovf = false := rfl
@[simp] theorem resetBlock_sovf : (resetBlock s).sovf = false := rfl
@[simp] theorem resetBlock_ill : (resetBlock s).ill = false := rfl
@[simp] theorem resetBlock_cand : (resetBlock s).cand = 0#2 := rfl
@[simp] theorem resetBlock_consumed : (resetBlock s).consumed = 0#16 := rfl
@[simp] theorem resetBlock_skip : (resetBlock s).skip = 0#16 := rfl
@[simp] theorem resetBlock_params : (resetBlock s).params = s.params := rfl
@[simp] theorem resetBlock_pending : (resetBlock s).pending = s.pending := rfl
@[simp] theorem resetBlock_emitted : (resetBlock s).emitted = s.emitted := rfl
@[simp] theorem resetBlock_answers : (resetBlock s).answers = s.answers := rfl

/-! ### answerRead -/

@[simp] theorem answerRead_crc (a : BusAddr) : (answerRead a s).crc = s.crc := rfl
@[simp] theorem answerRead_win (a : BusAddr) : (answerRead a s).win = s.win := rfl
@[simp] theorem answerRead_stage (a : BusAddr) : (answerRead a s).stage = s.stage := rfl
@[simp] theorem answerRead_tx (a : BusAddr) : (answerRead a s).tx = s.tx := rfl
@[simp] theorem answerRead_rx (a : BusAddr) : (answerRead a s).rx = s.rx := rfl
@[simp] theorem answerRead_pl (a : BusAddr) : (answerRead a s).pl = s.pl := rfl
@[simp] theorem answerRead_phase (a : BusAddr) : (answerRead a s).phase = s.phase := rfl
@[simp] theorem answerRead_res (a : BusAddr) : (answerRead a s).res = s.res := rfl
@[simp] theorem answerRead_eos (a : BusAddr) : (answerRead a s).eos = s.eos := rfl
@[simp] theorem answerRead_ovf (a : BusAddr) : (answerRead a s).ovf = s.ovf := rfl
@[simp] theorem answerRead_sovf (a : BusAddr) : (answerRead a s).sovf = s.sovf := rfl
@[simp] theorem answerRead_ill (a : BusAddr) : (answerRead a s).ill = s.ill := rfl
@[simp] theorem answerRead_cand (a : BusAddr) : (answerRead a s).cand = s.cand := rfl
@[simp] theorem answerRead_consumed (a : BusAddr) : (answerRead a s).consumed = s.consumed := rfl
@[simp] theorem answerRead_skip (a : BusAddr) : (answerRead a s).skip = s.skip := rfl
@[simp] theorem answerRead_params (a : BusAddr) : (answerRead a s).params = s.params := rfl
@[simp] theorem answerRead_pending (a : BusAddr) : (answerRead a s).pending = s.pending := rfl
@[simp] theorem answerRead_emitted (a : BusAddr) : (answerRead a s).emitted = s.emitted := rfl
@[simp] theorem answerRead_answers (a : BusAddr) : (answerRead a s).answers = s.answers ++ [busRead s a] := rfl

/-! ### pushInput -/

@[simp] theorem pushInput_crc (inp : Input) : (pushInput inp s).crc = s.crc := rfl
@[simp] theorem pushInput_win (inp : Input) : (pushInput inp s).win = s.win := rfl
@[simp] theorem pushInput_stage (inp : Input) : (pushInput inp s).stage = s.stage := rfl
@[simp] theorem pushInput_tx (inp : Input) : (pushInput inp s).tx = s.tx := rfl
@[simp] theorem pushInput_rx (inp : Input) : (pushInput inp s).rx = s.rx := rfl
@[simp] theorem pushInput_pl (inp : Input) : (pushInput inp s).pl = s.pl := rfl
@[simp] theorem pushInput_phase (inp : Input) : (pushInput inp s).phase = s.phase := rfl
@[simp] theorem pushInput_res (inp : Input) : (pushInput inp s).res = s.res := rfl
@[simp] theorem pushInput_eos (inp : Input) : (pushInput inp s).eos = s.eos := rfl
@[simp] theorem pushInput_ovf (inp : Input) : (pushInput inp s).ovf = s.ovf := rfl
@[simp] theorem pushInput_sovf (inp : Input) : (pushInput inp s).sovf = s.sovf := rfl
@[simp] theorem pushInput_ill (inp : Input) : (pushInput inp s).ill = s.ill := rfl
@[simp] theorem pushInput_cand (inp : Input) : (pushInput inp s).cand = s.cand := rfl
@[simp] theorem pushInput_consumed (inp : Input) : (pushInput inp s).consumed = s.consumed := rfl
@[simp] theorem pushInput_skip (inp : Input) : (pushInput inp s).skip = s.skip := rfl
@[simp] theorem pushInput_params (inp : Input) : (pushInput inp s).params = s.params := rfl
@[simp] theorem pushInput_pending (inp : Input) : (pushInput inp s).pending = inp :: s.pending := rfl
@[simp] theorem pushInput_emitted (inp : Input) : (pushInput inp s).emitted = s.emitted := rfl
@[simp] theorem pushInput_answers (inp : Input) : (pushInput inp s).answers = s.answers := rfl

end Sys2Proof.Machine
end

