-- ==== Sys2Proof/Laws/Ops.lean ====
section
/-! SUPPORT. What each shared operation can do, said once: the provers cite these instead of unfolding
the operation. -/

namespace Sys2Proof.Machine

variable {s t : State}

/-! ### The guard -/

@[simp] theorem isIdle_eq_true : isIdle s = true ↔ s.phase = .idle := by simp [isIdle]

theorem actOrIll_of_true {c : Bool} {f : State → State} (h : c = true) : actOrIll c f s = f s := by
  simp [actOrIll, h]

theorem actOrIll_of_false {c : Bool} {f : State → State} (h : c = false) :
    actOrIll c f s = raiseIll s := by simp [actOrIll, h]

/-- A gated command acts or raises ILL. -/
theorem actOrIll_cases (c : Bool) (f : State → State) (s : State) :
    (c = true ∧ actOrIll c f s = f s) ∨ (c = false ∧ actOrIll c f s = raiseIll s) := by
  cases c <;> simp [actOrIll]

/-! ### Receiving -/

/-- An overflow discards, and in AWAIT also ends the exchange. -/
theorem overflow_cases (s : State) :
    (s.phase = .await ∧ overflow s = endExchange .errOvf (discardReceived s)) ∨
    (s.phase ≠ .await ∧ overflow s = discardReceived s) := by
  by_cases h : s.phase = .await <;> simp [overflow, h]

/-- An automatic extraction applies its outcome; any outcome but INCOMPLETE ends the exchange. -/
theorem autoExtract_cases (s : State) :
    ((extract s.rx false s.win).out = .incomplete ∧
      autoExtract s = applyExtraction (extract s.rx false s.win) s) ∨
    ((extract s.rx false s.win).out ≠ .incomplete ∧
      autoExtract s = { applyExtraction (extract s.rx false s.win) s with phase := .idle }) := by
  by_cases h : (extract s.rx false s.win).out = .incomplete <;> simp [autoExtract, h]

/-- A received byte overflows a full buffer, or is stored, and in AWAIT extracted. -/
theorem receive_cases (d : Byte) (s : State) :
    (s.rx.length = s.params.rxCap ∧ receive d s = overflow s) ∨
    (s.rx.length ≠ s.params.rxCap ∧ s.phase = .await ∧
      receive d s = autoExtract (storeReceived d s)) ∨
    (s.rx.length ≠ s.params.rxCap ∧ s.phase ≠ .await ∧ receive d s = storeReceived d s) := by
  by_cases h : s.rx.length = s.params.rxCap
  · simp [receive, h]
  · by_cases hp : s.phase = .await <;> simp [receive, h, hp]

/-! ### Transmitting -/

/-- After a byte was taken: the exchange goes on, waits, or ends at end of stream. -/
theorem afterTake_cases (s : State) :
    (s.tx ≠ [] ∧ afterTake s = s) ∨
    (s.tx = [] ∧ s.eos = true ∧ afterTake s = endExchange .errEof s) ∨
    (s.tx = [] ∧ s.eos = false ∧ afterTake s = { s with phase := .await }) := by
  by_cases h : s.tx = []
  · cases he : s.eos <;> simp [afterTake, h, he]
  · simp [afterTake, h]

/-! ### The frames -/

@[simp] theorem frameReq_length (d : List Byte) : (frameReq d).length = d.length + 3 := by
  simp [frameReq]

theorem frameReq_ne_nil (d : List Byte) : frameReq d ≠ [] := by simp [frameReq]

@[simp] theorem frameRsp_length (p : List Byte) (w : Bool) :
    (frameRsp p w).length = p.length + 4 := by simp [frameRsp]

/-! ### The CRC -/

@[simp] theorem crcFrom_nil (c : Word) : crcFrom c [] = c := rfl

@[simp] theorem crcFrom_cons (c : Word) (b : Byte) (d : List Byte) :
    crcFrom c (b :: d) = crcFrom (crcStep c b) d := rfl

theorem crcFrom_append (c : Word) (d e : List Byte) :
    crcFrom c (d ++ e) = crcFrom (crcFrom c d) e := by
  induction d generalizing c with
  | nil => rfl
  | cons b d ih => exact ih _

/-! ### Meanings -/

/-- RXB has a next state exactly while `eos = 0`. -/
theorem execRxb_eq_next {d : Byte} (h : execRxb d s = .next t) : s.eos = false ∧ t = receive d s := by
  unfold execRxb at h
  split at h
  · cases h
  · next he => cases h; exact ⟨by simpa using he, rfl⟩

/-- TXTAKE has a next state exactly while `tx` is not empty. -/
theorem execTxtake_eq_next (h : execTxtake s = .next t) :
    ∃ b rest, s.tx = b :: rest ∧ t = afterTake (emitFront b rest s) := by
  unfold execTxtake at h
  split at h
  · cases h
  · next b rest hb => cases h; exact ⟨b, rest, hb, rfl⟩

/-- All that an instruction with a next state can do. -/
theorem exec_cases {i : Instr} (h : exec i s = .next t) :
    (i = .nop ∧ t = s) ∨
    (i = .crcinit ∧ t = setCrc 0#16 s) ∨
    (∃ b, i = .crcbyte b ∧ t = setCrc (crcStep s.crc b) s) ∨
    (i = .stclr ∧ t = clearStage s) ∨
    (∃ b, i = .stbyte b ∧ s.stage.length = s.params.stageCap ∧ t = markStageOverflow s) ∨
    (∃ b, i = .stbyte b ∧ s.stage.length ≠ s.params.stageCap ∧ t = storeStaged b s) ∨
    (i = .send ∧ t = actOrIll (isIdle s) startExchange s) ∨
    (i = .decode ∧ t = actOrIll (isIdle s) (extractOnce false) s) ∨
    (i = .decodef ∧ t = actOrIll (isIdle s) (extractOnce true) s) ∨
    (∃ imm, i = .setcfg imm ∧
      t = actOrIll (isIdle s && setcfgReservedZero imm) (setWindow (setcfgWin imm)) s) ∨
    (i = .clrflags ∧ t = clearStickyFlags s) ∨
    (i = .release ∧ t = forfeit s) ∨
    (∃ d, i = .rxb d ∧ s.eos = false ∧ t = receive d s) ∨
    (i = .rxeos ∧ s.phase = .await ∧ t = endExchange .errEof (markEndOfStream s)) ∨
    (i = .rxeos ∧ s.phase ≠ .await ∧ t = markEndOfStream s) ∨
    (i = .ioerr ∧ s.phase ≠ .idle ∧ t = abandonExchange s) ∨
    (i = .ioerr ∧ s.phase = .idle ∧ t = s) ∨
    (i = .txtake ∧ ∃ b rest, s.tx = b :: rest ∧ t = afterTake (emitFront b rest s)) := by
  cases i with
  | nop => cases h; simp
  | crcinit => cases h; simp
  | crcbyte b => cases h; simp
  | stclr => cases h; simp
  | stbyte b =>
    cases h
    by_cases hf : s.stage.length = s.params.stageCap <;> simp [hf]
  | send => cases h; simp
  | decode => cases h; simp
  | decodef => cases h; simp
  | setcfg imm => cases h; simp
  | clrflags => cases h; simp
  | release => cases h; simp
  | rxb d => obtain ⟨he, rfl⟩ := execRxb_eq_next h; simp [he]
  | rxeos =>
    cases h
    by_cases hp : s.phase = .await <;> simp [hp]
  | ioerr =>
    cases h
    cases hp : s.phase <;> simp
  | txtake => obtain ⟨b, rest, hb, rfl⟩ := execTxtake_eq_next h; simp [hb]

/-! ### The step -/

/-- With no input the step leaves the state as it is. -/
theorem step_of_no_input (h : s.pending = []) : step s = .next s := by
  simp [step, takeInput, h]

/-- With an input the step is its delivery, the input taken off the list. -/
theorem step_of_input {inp : Input} {rest : List Input} (h : s.pending = inp :: rest) :
    step s = deliver inp { s with pending := rest } := by
  simp [step, takeInput, h]

/-- All that one input with a next state can do. -/
theorem deliver_cases {inp : Input} (h : deliver inp s = .next t) :
    (∃ v i, inp = .write cmdAddr v ∧ decodeCommand v = some i ∧ exec i s = .next t) ∨
    (∃ v, inp = .write cmdAddr v ∧ decodeCommand v = none ∧ t = raiseIll s) ∨
    (∃ a v, inp = .write a v ∧ a ≠ cmdAddr ∧ t = raiseIll s) ∨
    (∃ a, inp = .read a ∧ t = answerRead a s) ∨
    (∃ w i, inp = .port w ∧ decodeTransport w = some i ∧ exec i s = .next t) ∨
    (inp = .reset ∧ t = resetBlock s) := by
  cases inp with
  | write a v =>
    by_cases ha : a = cmdAddr
    · subst ha
      simp only [deliver, busWrite, if_true, performCommand] at h
      split at h
      · next i hi => exact .inl ⟨v, i, rfl, hi, h⟩
      · next hn => cases h; exact .inr (.inl ⟨v, rfl, hn, rfl⟩)
    · simp only [deliver, busWrite, if_neg ha] at h
      cases h
      exact .inr (.inr (.inl ⟨a, v, rfl, ha, rfl⟩))
  | read a => cases h; simp
  | port w =>
    simp only [deliver, performTransport] at h
    split at h
    · next i hi => simp [hi, h]
    · cases h
  | reset => cases h; simp

/-- All that a step with a next state can do. -/
theorem step_cases (h : step s = .next t) :
    (s.pending = [] ∧ t = s) ∨
    ∃ inp rest, s.pending = inp :: rest ∧ deliver inp { s with pending := rest } = .next t := by
  cases hp : s.pending with
  | nil => rw [step_of_no_input hp] at h; cases h; exact .inl ⟨rfl, rfl⟩
  | cons inp rest => exact .inr ⟨inp, rest, rfl, by rw [← step_of_input hp]; exact h⟩

end Sys2Proof.Machine
end

