-- ==== Sys2Proof/Laws/PerInstr.lean ====
section
/-! SUPPORT. What holds of every instruction as syntax, one lemma for each constructor. -/

namespace Sys2Proof.Laws

/-- Bit 15 of an instruction's word says which port carries it: set for the transport events, clear for
the commands (30_encoding.md R71, R74). -/
def EncodingPort.Statement (i : Instr) : Prop := (encode i).getLsbD 15 = i.isTransport

theorem EncodingPort.nop : EncodingPort.Statement .nop := rfl
theorem EncodingPort.crcinit : EncodingPort.Statement .crcinit := rfl
theorem EncodingPort.crcbyte (b : Byte) : EncodingPort.Statement (.crcbyte b) := by
  simp [EncodingPort.Statement, encode, withOperand, Instr.isTransport]
theorem EncodingPort.stclr : EncodingPort.Statement .stclr := rfl
theorem EncodingPort.stbyte (b : Byte) : EncodingPort.Statement (.stbyte b) := by
  simp [EncodingPort.Statement, encode, withOperand, Instr.isTransport]
theorem EncodingPort.send : EncodingPort.Statement .send := rfl
theorem EncodingPort.decode : EncodingPort.Statement .decode := rfl
theorem EncodingPort.decodef : EncodingPort.Statement .decodef := rfl
theorem EncodingPort.setcfg (imm : Byte) : EncodingPort.Statement (.setcfg imm) := by
  simp [EncodingPort.Statement, encode, withOperand, Instr.isTransport]
theorem EncodingPort.clrflags : EncodingPort.Statement .clrflags := rfl
theorem EncodingPort.release : EncodingPort.Statement .release := rfl
theorem EncodingPort.rxb (d : Byte) : EncodingPort.Statement (.rxb d) := by
  simp [EncodingPort.Statement, encode, withOperand, Instr.isTransport]
theorem EncodingPort.rxeos : EncodingPort.Statement .rxeos := rfl
theorem EncodingPort.ioerr : EncodingPort.Statement .ioerr := rfl
theorem EncodingPort.txtake : EncodingPort.Statement .txtake := rfl

end Sys2Proof.Laws
end

