-- ==== Sys2Proof/Machine/Assembler.lean ====
section
/-! DEFINITION. The line syntax of 30_encoding.md R78 and the pseudo-instructions of R79. They name
sequences of inputs; an expansion has no effect beyond that of its commands. Log 11. -/

namespace Sys2Proof.Machine

/-- A line of a program: a command or event by its OP or EV byte and operand byte, a bare word, or a
pseudo-instruction (R78, R79). -/
inductive Line where
  /-- A command word `op` ++ `imm` written to CMD. -/
  | command (op imm : Byte)
  /-- A bare word written to CMD: the form of 95_test_vectors.md P5 lines 7 to 9 (log 11). -/
  | word (w : Word)
  /-- A transport event word `ev` ++ `data`. -/
  | event (ev data : Byte)
  /-- STSTR "s". -/
  | ststr (s : List Byte)
  /-- CRCSTR "s". -/
  | crcstr (s : List Byte)
  /-- CRCOF "s". -/
  | crcof (s : List Byte)
  /-- REQUEST "s". -/
  | request (s : List Byte)
  /-- SETWIN n. -/
  | setwin (n : Byte)
  /-- @RXSTR b0 b1 ... -/
  | rxstr (bs : List Byte)
  /-- @TXALL. -/
  | txall
  deriving DecidableEq, Repr

/-- The input that writes an instruction's word to CMD. -/
def commandInput (i : Instr) : Input := .write cmdAddr (encode i)

/-- The input that gives an event's word on the transport port. -/
def eventInput (i : Instr) : Input := .port (encode i)

/-- The inputs of a line reached in state `s` (R79); @TXALL repeats TXTAKE while `tx` is not empty, one
for each byte `tx` holds. -/
def Line.expand (s : State) : Line → List Input
  | .command op imm => [.write cmdAddr (op ++ imm)]
  | .word w => [.write cmdAddr w]
  | .event ev data => [.port (ev ++ data)]
  | .ststr bs => bs.map fun c => commandInput (.stbyte c)
  | .crcstr bs => bs.map fun c => commandInput (.crcbyte c)
  | .crcof bs => commandInput .crcinit :: bs.map fun c => commandInput (.crcbyte c)
  | .request bs =>
    commandInput .stclr :: (bs.map (fun c => commandInput (.stbyte c)) ++ [commandInput .send])
  | .setwin n => [commandInput (.setcfg n)]
  | .rxstr bs => bs.map fun c => eventInput (.rxb c)
  | .txall => s.tx.map fun _ => eventInput .txtake

/-- A token: a word of letters or digits, a character in single quotes, a string in double quotes. -/
inductive Token where
  | word (cs : List Char)
  | char (c : Char)
  | str (cs : List Char)
  deriving DecidableEq, Repr

/-- A word in progress, its last character first, becomes a token. -/
def flushWord (cur : List Char) : List Token := if cur = [] then [] else [.word cur.reverse]

/-- A single quote (ASCII 39). -/
def isQuote (c : Char) : Bool := c.toNat == 39

/-- A double quote (ASCII 34). -/
def isDoubleQuote (c : Char) : Bool := c.toNat == 34

/-- A blank between tokens: space or tab. R78 shows a single space only; that a tab, or several blanks,
separate as well is a DESIGN CHOICE (log 11). -/
def isBlank (c : Char) : Bool := c.toNat == 32 || c.toNat == 9

/-- `;`, which begins a comment (R78). -/
def isComment (c : Char) : Bool := c.toNat == 59

/-- The tokens of a line; `cur` is the word in progress, the third argument the string in progress (each its last
character first). `;` outside quotes begins a comment (R78). DESIGN CHOICE (log 11), which R78 leaves
open: a run of blanks separates tokens, and a quote begins a token with or without a blank before it, so
`STBYTE'Q'` is the line `STBYTE 'Q'`. -/
def tokens : List Char → List Char → Option (List Char) → Option (List Token)
  | [], cur, none => some (flushWord cur)
  | [], _, some _ => none
  | c :: rest, _, some acc =>
    if isDoubleQuote c then (tokens rest [] none).map (Token.str acc.reverse :: ·)
    else tokens rest [] (some (c :: acc))
  | c :: rest, cur, none =>
    if isComment c then some (flushWord cur)
    else if isDoubleQuote c then (tokens rest [] (some [])).map (flushWord cur ++ ·)
    else if isBlank c then (tokens rest [] none).map (flushWord cur ++ ·)
    else if isQuote c then
      match rest with
      | x :: y :: rest' =>
        if isQuote y then (tokens rest' [] none).map (flushWord cur ++ Token.char x :: ·) else none
      | _ => none
    else tokens rest (c :: cur) none

/-- The value of a digit in a base up to 16, the letters in either case (DESIGN CHOICE, log 11). -/
def digitValue (base : Nat) (c : Char) : Option Nat :=
  let v := c.toNat
  let d :=
    if 48 ≤ v ∧ v ≤ 57 then v - 48
    else if 65 ≤ v ∧ v ≤ 70 then v - 55
    else if 97 ≤ v ∧ v ≤ 102 then v - 87
    else 16
  if d < base then some d else none

/-- The number of a digit sequence, its most significant digit first, continuing from `acc`. -/
def digitsFrom (base acc : Nat) : List Char → Option Nat
  | [] => some acc
  | c :: rest => (digitValue base c).bind fun d => digitsFrom base (acc * base + d) rest

/-- A number in hexadecimal (`0x51`) or decimal (`81`) (R78). -/
def numberOf : List Char → Option Nat
  | [] => none
  | '0' :: 'x' :: c :: rest => digitsFrom 16 0 (c :: rest)
  | c :: rest => digitsFrom 10 0 (c :: rest)

/-- A printable ASCII character in single quotes as its byte (R78). -/
def charByte (c : Char) : Option Byte :=
  if 32 ≤ c.toNat ∧ c.toNat ≤ 126 then some (BitVec.ofNat 8 c.toNat) else none

/-- An operand: a number of at most 255, or a character (R78). -/
def operandByte : Token → Option Byte
  | .word cs => (numberOf cs).bind fun n => if n < 256 then some (BitVec.ofNat 8 n) else none
  | .char c => charByte c
  | .str _ => none

/-- The bytes of a list of operands. -/
def operandBytes : List Token → Option (List Byte)
  | [] => some []
  | t :: rest => (operandByte t).bind fun b => (operandBytes rest).map (b :: ·)

/-- An ASCII character as its byte, printable or not: a string stands for its ASCII byte sequence
(00_scope.md R10). That R78's limit to printable characters does not hold in a string is DEDUCED
(log 11). -/
def asciiByte (c : Char) : Option Byte :=
  if c.toNat < 128 then some (BitVec.ofNat 8 c.toNat) else none

/-- The bytes of a string (00_scope.md R10, R79). A double quote ends it, so it holds none. -/
def stringBytes : List Char → Option (List Byte)
  | [] => some []
  | c :: rest => (asciiByte c).bind fun b => (stringBytes rest).map (b :: ·)

/-- A letter in upper case: mnemonics are case-insensitive (R78). -/
def upper (c : Char) : Char :=
  if 97 ≤ c.toNat ∧ c.toNat ≤ 122 then Char.ofNat (c.toNat - 32) else c

/-- A mnemonic of a line without operand (R73, R74, R79). -/
def plainLine : List Char → Option Line
  | ['N', 'O', 'P'] => some (.command 0x00#8 0#8)
  | ['C', 'R', 'C', 'I', 'N', 'I', 'T'] => some (.command 0x01#8 0#8)
  | ['S', 'T', 'C', 'L', 'R'] => some (.command 0x10#8 0#8)
  | ['S', 'E', 'N', 'D'] => some (.command 0x12#8 0#8)
  | ['D', 'E', 'C', 'O', 'D', 'E'] => some (.command 0x20#8 0#8)
  | ['D', 'E', 'C', 'O', 'D', 'E', 'F'] => some (.command 0x21#8 0#8)
  | ['C', 'L', 'R', 'F', 'L', 'A', 'G', 'S'] => some (.command 0x31#8 0#8)
  | ['R', 'E', 'L', 'E', 'A', 'S', 'E'] => some (.command 0x3F#8 0#8)
  | ['@', 'R', 'X', 'E', 'O', 'S'] => some (.event 0x81#8 0#8)
  | ['@', 'I', 'O', 'E', 'R', 'R'] => some (.event 0x82#8 0#8)
  | ['@', 'T', 'X', 'T', 'A', 'K', 'E'] => some (.event 0x83#8 0#8)
  | ['@', 'T', 'X', 'A', 'L', 'L'] => some .txall
  | _ => none

/-- A bare word as a line: a number of at most 16 bits, written to CMD. R78 gives no such form, and
95_test_vectors.md P5 lines 7 to 9 write `0x0300`, `0x0001` and `0x0105` as program lines. DEDUCED from
P5 (log 11). -/
def wordLine (m : List Char) : Option Line :=
  (numberOf m).bind fun n => if n < 65536 then some (.word (BitVec.ofNat 16 n)) else none

/-- A mnemonic of a line with one operand byte (R73, R74, R79). -/
def byteLine (b : Byte) : List Char → Option Line
  | ['C', 'R', 'C', 'B', 'Y', 'T', 'E'] => some (.command 0x02#8 b)
  | ['S', 'T', 'B', 'Y', 'T', 'E'] => some (.command 0x11#8 b)
  | ['S', 'E', 'T', 'C', 'F', 'G'] => some (.command 0x30#8 b)
  | ['S', 'E', 'T', 'W', 'I', 'N'] => if b = 0#8 ∨ b = 1#8 then some (.setwin b) else none
  | ['@', 'R', 'X', 'B'] => some (.event 0x80#8 b)
  | ['@', 'R', 'X', 'S', 'T', 'R'] => some (.rxstr [b])
  | _ => none

/-- A mnemonic of a line with a string (R79). -/
def stringLine (bs : List Byte) : List Char → Option Line
  | ['S', 'T', 'S', 'T', 'R'] => some (.ststr bs)
  | ['C', 'R', 'C', 'S', 'T', 'R'] => some (.crcstr bs)
  | ['C', 'R', 'C', 'O', 'F'] => some (.crcof bs)
  | ['R', 'E', 'Q', 'U', 'E', 'S', 'T'] => some (.request bs)
  | _ => none

/-- A line with several operand bytes: @RXSTR only (R79). -/
def bytesLine (bs : List Byte) (m : List Char) : Option Line :=
  if m = ['@', 'R', 'X', 'S', 'T', 'R'] then some (.rxstr bs) else none

/-- The line of a token sequence; a line of blanks or a comment alone is no line. -/
def lineOfTokens : List Token → Option (Option Line)
  | [] => some none
  | [.word m] => ((plainLine (m.map upper)).orElse fun _ => wordLine m).map some
  | [.word m, .str cs] =>
    (stringBytes cs).bind fun bs => (stringLine bs (m.map upper)).map some
  | [.word m, t] => (operandByte t).bind fun b => (byteLine b (m.map upper)).map some
  | .word m :: ts => (operandBytes ts).bind fun bs => (bytesLine bs (m.map upper)).map some
  | _ => none

/-- One line of assembly text (R78): none for text that is no line, `some none` for a blank line or a
comment, else the line. -/
def parseLine (text : List Char) : Option (Option Line) :=
  (tokens text [] none).bind lineOfTokens

/-- The inputs of one line of assembly text reached in state `s` (R78, R79). -/
def assembleLine (s : State) (text : List Char) : Option (List Input) :=
  (parseLine text).map fun l =>
    match l with
    | none => []
    | some l => l.expand s

end Sys2Proof.Machine
end

