-- ==== Sys2Proof/Tests/Slice0.lean ====
section
/-! SUPPORT. Tests with expected results from the spec (30_encoding.md, 95_test_vectors.md), and for each
statement with hypotheses a concrete state and operands that meet them. -/

namespace Sys2Proof.Tests

open Sys2Proof.Machine

/-! ### Helpers -/

/-- The next state of an outcome. -/
def nextOf : Host.Outcome State Fault Refusal → Option State
  | .next s => some s
  | .fault _ => none
  | .refused _ => none

/-- The fault of an outcome. -/
def faultOf : Host.Outcome State Fault Refusal → Option Fault
  | .next _ => none
  | .fault r => some r
  | .refused _ => none

/-- One instruction run on a state; the state itself where there is no next one. -/
def after (i : Instr) (s : State) : State := (nextOf (exec i s)).getD s

/-- Right after reset with RX_CAP = 16, STAGE_CAP = 3, WIN_RESET = 1. -/
def fresh : State := State.powerOn ⟨16, 3, true⟩

/-- An exchange whose request is one byte from written. -/
def sending : State := { fresh with phase := .tx, tx := [0x0D#8] }

/-- An exchange that waits for its response. -/
def waiting : State := { fresh with phase := .await }

/-- The frame F1 of 95_test_vectors.md less its stop byte. -/
def f1Open : List Byte := [0x28#8, 0x31#8, 0x32#8, 0x33#8, 0x34#8, 0x35#8, 0x6C#8, 0x26#8]

/-- `frame_rsp("12345", 1)` (95_test_vectors.md V-FRM-1). -/
def f1 : List Byte := f1Open ++ [0x0D#8]

/-- F1 with byte 2 changed from 32 to 33 (95_test_vectors.md, `bad`). -/
def badFrame : List Byte :=
  [0x28#8, 0x31#8, 0x33#8, 0x33#8, 0x34#8, 0x35#8, 0x6C#8, 0x26#8, 0x0D#8]

/-! ### Decoding: every constructor from a word written out from R73 and R74 -/

theorem test_decode_nop : decodeCommand 0b00000000_00000000#16 = some .nop := by decide
theorem test_decode_crcinit : decodeCommand 0b00000001_00000000#16 = some .crcinit := by decide
theorem test_decode_crcbyte : decodeCommand 0b00000010_10100101#16 = some (.crcbyte 0xA5#8) := by
  decide
theorem test_decode_stclr : decodeCommand 0b00010000_00000000#16 = some .stclr := by decide
theorem test_decode_stbyte : decodeCommand 0b00010001_01010001#16 = some (.stbyte 0x51#8) := by
  decide
theorem test_decode_send : decodeCommand 0b00010010_00000000#16 = some .send := by decide
theorem test_decode_decode : decodeCommand 0b00100000_00000000#16 = some .decode := by decide
theorem test_decode_decodef : decodeCommand 0b00100001_00000000#16 = some .decodef := by decide
theorem test_decode_setcfg : decodeCommand 0b00110000_00000001#16 = some (.setcfg 0x01#8) := by
  decide
theorem test_decode_clrflags : decodeCommand 0b00110001_00000000#16 = some .clrflags := by decide
theorem test_decode_release : decodeCommand 0b00111111_00000000#16 = some .release := by decide
theorem test_decode_rxb : decodeTransport 0b10000000_00001101#16 = some (.rxb 0x0D#8) := by decide
theorem test_decode_rxeos : decodeTransport 0b10000001_00000000#16 = some .rxeos := by decide
theorem test_decode_ioerr : decodeTransport 0b10000010_00000000#16 = some .ioerr := by decide
theorem test_decode_txtake : decodeTransport 0b10000011_00000000#16 = some .txtake := by decide

/-- Words that match no row (R75; 95_test_vectors.md K3, K6, K25 to K34). -/
theorem test_decode_illegal_words :
    [0x0001#16, 0x0101#16, 0x0300#16, 0x1300#16, 0x2001#16, 0x3002#16, 0x3101#16, 0x3E00#16,
      0x4000#16, 0x8000#16, 0x8300#16, 0xFFFF#16].all
      (fun w => decodeCommand w == none) = true := by decide

theorem test_decode_no_event :
    [0x8101#16, 0x8400#16, 0x1200#16].all (fun w => decodeTransport w == none) = true := by decide

theorem test_encode_words :
    encode (.stbyte 0x51#8) = 0x1151#16 ∧ encode (.setcfg 0x01#8) = 0x3001#16 ∧
    encode (.rxb 0x0D#8) = 0x800D#16 ∧ encode .txtake = 0x8300#16 := by decide

/-- WellFormed's one check refuses SETCFG with a reserved bit set (R75). -/
theorem test_wellFormed_refuses_setcfg_reserved_bit :
    (Instr.setcfg 0x02#8).wellFormed = false ∧ (Instr.setcfg 0x80#8).wellFormed = false := by decide

theorem test_table_words :
    decodeTableWord 16 0x3F00 = some .release ∧ decodeTableWord 16 0x80FF = some (.rxb 0xFF#8) ∧
    decodeTableWord 16 0x0300 = none := by decide

/-! ### The CRC (95_test_vectors.md V-STEP, V-CRC, V-CU) -/

theorem test_crcStep_polynomial : crcStep 0x0000#16 0x01#8 = 0x1021#16 := by decide
theorem test_crc16_qpi : crc16 [0x51#8, 0x50#8, 0x49#8] = 0xBEAC#16 := by decide +kernel
theorem test_crcinit_clears : (after .crcinit { fresh with crc := 0xBEAC#16 }).crc = 0x0000#16 := by
  decide
theorem test_crcbyte_feeds :
    (after (.crcbyte 0x56#8) { fresh with crc := 0x1234#16 }).crc = 0x3C40#16 := by decide

/-! ### The encoder (V-ENC) -/

theorem test_stclr_empties : (after .stclr { fresh with stage := [0x51#8] }).stage = [] := by decide
theorem test_stbyte_appends :
    (after (.stbyte 0x50#8) { fresh with stage := [0x51#8] }).stage = [0x51#8, 0x50#8] := by decide
theorem test_stbyte_full_sets_sovf :
    (after (.stbyte 0x41#8) { fresh with stage := [0x51#8, 0x50#8, 0x49#8] }).stage.length = 3 ∧
    statusWord (after (.stbyte 0x41#8) { fresh with stage := [0x51#8, 0x50#8, 0x49#8] })
      = 0x0080#16 := by decide
theorem test_send_frames_the_request :
    (after .send { fresh with stage := [0x51#8, 0x50#8, 0x49#8] }).tx =
      [0x51#8, 0x50#8, 0x49#8, 0xBE#8, 0xAC#8, 0x0D#8] ∧
    statusWord (after .send { fresh with stage := [0x51#8, 0x50#8, 0x49#8] }) = 0x0008#16 := by
  decide +kernel
theorem test_send_in_tx_is_illegal :
    statusWord (after .send sending) = 0x0108#16 ∧ (after .send sending).tx = [0x0D#8] := by decide

/-! ### The extractor (X4, X14, X15, X23, X30) -/

theorem test_extract_valid_frame :
    extract f1 false true = ⟨.frame, 9, [0x31#8, 0x32#8, 0x33#8, 0x34#8, 0x35#8], 0, 0⟩ := by decide +kernel
theorem test_extract_high_crc_byte_is_stop :
    extract [0x28#8, 0x43#8, 0x52#8, 0x0D#8, 0x4F#8, 0x0D#8] false true =
      ⟨.frame, 6, [0x43#8, 0x52#8], 0, 2⟩ := by decide +kernel
theorem test_extract_start_byte_in_garbage :
    (extract ([0x61#8, 0x28#8, 0x62#8] ++ f1) false true).out = .incomplete ∧
    extract ([0x61#8, 0x28#8, 0x62#8] ++ f1) true true = ⟨.errCrc, 12, [], 1, 0⟩ := by decide +kernel
theorem test_extract_examined_region :
    extract (badFrame ++ [0x41#8, 0x0D#8]) false true = ⟨.errCrc, 11, [], 0, 0⟩ := by decide +kernel
theorem test_fsm_agrees_on_x36 :
    fsmRun (badFrame ++ [0x41#8, 0x0D#8]) false true 8 .scan = .exit ⟨.errCrc, 11, [], 0, 0⟩ := by
  decide +kernel
theorem test_decode_applies_a_frame :
    statusWord (after .decode { fresh with rx := f1 }) = 0x0002#16 ∧
    (after .decode { fresh with rx := f1 }).consumed = 9#16 := by decide +kernel
theorem test_decodef_rejects_a_corrupted_frame :
    statusWord (after .decodef { fresh with rx := badFrame }) = 0x0004#16 ∧
    (after .decodef { fresh with rx := badFrame }).rx = [] := by decide +kernel

/-! ### The transport (A5, A10, A12, A15, A16, A19, A22) -/

theorem test_rxb_completes_the_exchange :
    statusWord (after (.rxb 0x0D#8) { waiting with rx := f1Open }) = 0x0002#16 ∧
    (after (.rxb 0x0D#8) { waiting with rx := f1Open }).pl =
      [0x31#8, 0x32#8, 0x33#8, 0x34#8, 0x35#8] := by decide +kernel
theorem test_rxb_overflow_in_await_and_idle :
    statusWord (after (.rxb 0x48#8)
      { waiting with params := ⟨8, 3, true⟩, res := .incomplete, rx := f1Open }) = 0x0047#16 ∧
    (after (.rxb 0x48#8)
      { waiting with params := ⟨8, 3, true⟩, rx := f1Open }).consumed = 8#16 ∧
    after (.rxb 0x49#8) { fresh with params := ⟨8, 3, true⟩, rx := f1Open } =
      { fresh with params := ⟨8, 3, true⟩, ovf := true, consumed := 8#16 } := by decide
theorem test_rxeos_in_await :
    statusWord (after .rxeos { waiting with res := .incomplete, rx := badFrame }) = 0x0025#16 ∧
    (after .rxeos { waiting with rx := badFrame }).rx = badFrame := by decide
theorem test_ioerr_in_tx_and_idle :
    statusWord (after .ioerr sending) = 0x0006#16 ∧ (after .ioerr sending).tx = [] ∧
    after .ioerr fresh = fresh := by decide
theorem test_txtake_last_byte :
    (after .txtake sending).emitted = [0x0D#8] ∧ statusWord (after .txtake sending) = 0x0010#16 := by
  decide
theorem test_txtake_last_byte_after_end_of_stream :
    statusWord (after .txtake { sending with eos := true }) = 0x0025#16 := by decide

/-! ### Control (K2, K4, K6, K10, K13, K15) -/

theorem test_nop_changes_nothing : after .nop sending = sending := by decide
theorem test_setcfg_writes_win : (after (.setcfg 0x00#8) fresh).win = false := by decide
theorem test_setcfg_reserved_bit_is_illegal :
    (after (.setcfg 0x02#8) fresh).win = true ∧
    statusWord (after (.setcfg 0x02#8) fresh) = 0x0100#16 := by decide
theorem test_clrflags_keeps_eos :
    statusWord (after .clrflags { fresh with eos := true, ill := true, sovf := true }) = 0x0020#16 := by
  decide
theorem test_release_keeps_ill_and_stage :
    statusWord (after .release
      { fresh with ill := true, eos := true, res := .errEof, rx := [0x28#8] }) = 0x0100#16 ∧
    (after .release { waiting with stage := [0x51#8], rx := [0x28#8] }).stage = [0x51#8] := by
  decide

/-! ### The ports, the bus and the step -/

/-- K35 and K38: a write to STATUS or to a window. -/
theorem test_bus_write_outside_cmd :
    (nextOf (step { fresh with pending := [.write 0x00001#20 0#16] })).map statusWord
      = some 0x0100#16 ∧
    (nextOf (step { fresh with pending := [.write 0x20000#20 0x41#16] })).map statusWord
      = some 0x0100#16 := by decide

/-- K39: a write to CMD is the command it carries. -/
theorem test_bus_write_to_cmd :
    (nextOf (step { fresh with pending := [.write 0x00000#20 0x1151#16] })).map (·.stage)
      = some [0x51#8] := by decide

/-- B13 to B20 on a state whose `pl` is "PI". -/
theorem test_bus_reads :
    busRead { fresh with pl := [0x50#8, 0x49#8] } 0x10001#20 = 0x0049#16 ∧
    busRead { fresh with pl := [0x50#8, 0x49#8] } 0x10002#20 = 0x0000#16 ∧
    busRead { fresh with pl := [0x50#8, 0x49#8] } 0x00007#20 = 0x0002#16 ∧
    busRead { fresh with pl := [0x50#8, 0x49#8] } 0x50000#20 = 0x0000#16 := by decide

/-- A word of the table runs as the first instruction after reset, the open parameters unknown. -/
theorem test_first_instruction_after_reset :
    ((nextOf (step (State.reset.withFetchWord 16 0x1151))).map (·.stage) = some [0x51#8]) ∧
    ((nextOf (step (State.reset.withFetchWord 16 0x8028))).map (·.rx) = some [0x28#8]) := by
  decide

theorem test_txtake_has_no_move_after_reset :
    faultOf (step (State.reset.withFetchWord 16 0x8300)) = some .txtakeWhileTxEmpty := by decide

theorem test_step_without_input : nextOf (step fresh) = some fresh := by decide

/-! ### Assembly text (R78, R80) -/

theorem test_assemble_command :
    assembleLine fresh ['s', 't', 'b', 'y', 't', 'e', ' ', Char.ofNat 39, 'Q', Char.ofNat 39]
      = some [.write 0x00000#20 0x1151#16] := by decide

/-- P5 line 7. -/
theorem test_assemble_bare_word :
    assembleLine fresh ['0', 'x', '0', '3', '0', '0'] = some [.write 0x00000#20 0x0300#16] := by decide

theorem test_assemble_event :
    assembleLine fresh ['@', 'R', 'X', 'B', ' ', '0', 'x', '0', 'D', ' ', Char.ofNat 59, 'c']
      = some [.port 0x800D#16] := by decide

theorem test_assemble_request :
    assembleLine fresh (['R', 'E', 'Q', 'U', 'E', 'S', 'T', ' '] ++ [Char.ofNat 34, 'Q', Char.ofNat 34])
      = some [.write 0#20 0x1000#16, .write 0#20 0x1151#16, .write 0#20 0x1200#16] := by decide

/-! ### Witnesses: concrete values that meet the hypotheses of each statement, clause by clause -/

/-- `s` with the inputs `l` to come. -/
def facing (l : List Input) (s : State) : State := { s with pending := l }

theorem witness_DecodeAfterEncode :
    (Instr.setcfg 0x01#8).wellFormed = true ∧ (Instr.rxb 0xFF#8).wellFormed = true := by decide

theorem witness_EncodeAfterDecode :
    decodeWord 0x3001#16 = some (.setcfg 0x01#8) ∧ decodeWord 0x80FF#16 = some (.rxb 0xFF#8) := by
  decide

theorem witness_OpcodeRowsDoNotOverlap :
    0x02FF#16 &&& (0xFF00#16 : Word) = 0x0200#16 ∧ 0x3001#16 &&& (0xFFFE#16 : Word) = 0x3000#16 := by
  decide

theorem witness_PortsShareNoInstruction :
    decodeCommand 0x3F00#16 = some .release ∧ decodeTransport 0x8000#16 = some (.rxb 0x00#8) := by
  decide

theorem witness_IllegalCommandWordsOnlySetIll :
    (facing [cmdIn 0x0300#16] fresh).pending = cmdIn 0x0300#16 :: [] ∧
    ([0x0001, 0x0300, 0x0FFF, 0x1300, 0x1FFF, 0x2200, 0x2FFF, 0x3002, 0x30FF, 0x3200, 0x3EFF, 0x4000,
      0xFFFF].all fun w => decide (IllegalCommand w fresh.phase)) = true ∧
    ([0x1200, 0x2000, 0x2100, 0x3000, 0x3001].all
      fun w => decide (IllegalCommand w waiting.phase)) = true ∧
    ([0x0000, 0x0100, 0x0200, 0x02FF, 0x1000, 0x11FF, 0x1200, 0x2000, 0x2100, 0x3000, 0x3001, 0x3100,
      0x3F00].all fun w => decide (¬ IllegalCommand w fresh.phase)) = true := by decide

theorem witness_BusWritesActOnlyAtCmd :
    (facing [.write 0x00001#20 0#16] fresh).pending = .write 0x00001#20 0#16 :: [] ∧
    (0x00001#20 : BusAddr) ≠ 0x00000#20 ∧ (0xFFFFF#20 : BusAddr) ≠ 0x00000#20 ∧
    (facing [.write 0x00000#20 0x1151#16] fresh).pending = .write 0x00000#20 0x1151#16 :: [] := by
  decide

theorem witness_StepRunsTheDecodedInstruction :
    ((facing [cmdIn 0x1200#16] fresh).pending = cmdIn 0x1200#16 :: [] ∧
      decodeCommand 0x1200#16 = some .send) ∧
    ((facing [.port 0x8028#16] fresh).pending = .port 0x8028#16 :: [] ∧
      decodeTransport 0x8028#16 = some (.rxb 0x28#8)) := by decide

theorem witness_StepStopsExactlyOnMissingMoves :
    faultOf (step (facing [.port 0x8101#16] fresh)) = some .notATransportEvent ∧
    (Input.port 0x8300#16).enabled fresh = false ∧
    (Input.port 0x8028#16).enabled { fresh with eos := true } = false := by decide

theorem witness_StepTakesOneInputAndKeepsOutputs :
    fresh.pending = [] ∧
    nextOf (step (facing [.port 0x8300#16] sending)) = some (after .txtake sending) := by decide

theorem witness_ResetEventSetsEveryElement :
    (facing [.reset] sending).pending = .reset :: [] ∧
    3 ≤ (0x00003#20 : BusAddr).toNat ∧ (0x00009#20 : BusAddr).toNat ≤ 9 := by decide

theorem witness_StepKeepsTheInvariant :
    (facing [.port 0x800D#16] { waiting with rx := f1Open, res := .incomplete }).Inv ∧
    nextOf (step (facing [.port 0x800D#16] { waiting with rx := f1Open, res := .incomplete })) =
      some (after (.rxb 0x0D#8) { waiting with rx := f1Open, res := .incomplete }) := by
  decide +kernel

theorem witness_ReachableStatesMeetTheFacts :
    Params.Legal ⟨8, 1, false⟩ ∧ Params.Legal ⟨65535, 65532, true⟩ ∧
    (nextOf (runSteps 2 { State.powerOn ⟨8, 1, false⟩ with
      pending := [cmdIn 0x1200#16, .port 0x8300#16] })).map (·.emitted) = some [0x00#8] := by decide

theorem witness_CrcIsLinearAndSeesEveryBit :
    ([0x01#8, 0x02#8] : List Byte).length = ([0x03#8, 0x04#8] : List Byte).length ∧
    1 < ([0x01#8, 0x02#8] : List Byte).length ∧ 7 < 8 := by decide

theorem witness_CrcUnitComputesCrc16 :
    (facing [cmdIn 0x0100#16, cmdIn 0x0251#16, .reset] fresh).pending =
      cmdIn 0x0100#16 ::
        ([0x51#8].map (fun b => cmdIn (0x0200#16 ||| b.setWidth 16)) ++ [.reset]) := by decide

theorem witness_CrcUnitIsApartFromTheCodec :
    (nextOf (step (facing [cmdIn 0x0201#16] fresh))).map (·.crc) = some 0x1021#16 ∧
    fresh.crc = 0x0000#16 ∧ Instr.send ≠ .crcinit ∧ (∀ b, Instr.send ≠ .crcbyte b) ∧
    nextOf (exec .send fresh) = some (after .send fresh) := by
  refine ⟨by decide, by decide, by decide, ?_, by decide⟩
  intro b h
  cases h

theorem witness_StagingCommandsWriteOnlyStage :
    fresh.stage.length ≠ fresh.params.stageCap ∧
    ({ fresh with stage := [0x51#8, 0x50#8] } : State).stage.length ≠ fresh.params.stageCap ∧
    ({ fresh with stage := [0x51#8, 0x50#8, 0x49#8] } : State).stage.length = fresh.params.stageCap := by
  decide

theorem witness_SendStartsAnExchange :
    fresh.phase = .idle ∧ ({ fresh with stage := [0x51#8], eos := true } : State).phase = .idle := by
  decide

theorem witness_GatedCommandsRaiseIllOutsideIdle :
    sending.phase ≠ .idle ∧ waiting.phase ≠ .idle ∧ 2 ≤ (0x02#8 : Byte).toNat ∧
    2 ≤ (0xFF#8 : Byte).toNat := by decide

theorem witness_SentRequestsCarryTheirCrc :
    ({ fresh with stage := [0x51#8, 0x50#8, 0x49#8] } : State).phase = .idle := by decide

theorem witness_RequestIsTransmittedInFull :
    fresh.phase = .idle ∧
    (facing [cmdIn 0x1200#16, .port 0x8300#16, .port 0x8300#16, .port 0x8300#16] fresh).pending =
      cmdIn 0x1200#16 :: (List.replicate (fresh.stage.length + 3) (.port 0x8300#16) ++ []) ∧
    fresh.eos = false ∧ ({ fresh with eos := true } : State).eos = true := by decide

theorem witness_TransmissionLosesNoByte :
    (facing [.port 0x8300#16] sending).phase = .tx ∧
    nextOf (step (facing [.port 0x8300#16] sending)) = some (after .txtake sending) ∧
    nextOf (step (facing [.port 0x8200#16] sending)) = some (after .ioerr sending) := by decide

theorem witness_ExtractWithoutStopOrStart :
    0x0D#8 ∉ f1Open ∧ (0x0D#8 : Byte) ∉ ([] : List Byte) ∧
    0x0D#8 ∉ [0x61#8, 0x62#8] ∧ 0x28#8 ∉ [0x61#8, 0x62#8] := by decide

theorem witness_ExtractedFramesAreVerified :
    extract [0x78#8, 0x28#8, 0x35#8, 0x4E#8, 0x7C#8, 0x0D#8, 0x0D#8] false true =
      ⟨.frame, 7, [0x35#8, 0x4E#8], 1, 1⟩ ∧
    extract [0x28#8, 0x00#8, 0x00#8, 0x0D#8] true false = ⟨.frame, 4, [], 0, 0⟩ := by decide +kernel

theorem witness_ResponseFramesRoundTrip :
    0x0D#8 ∉ ([] : List Byte) ∧ 0x0D#8 ∉ [0x31#8, 0x28#8] ∧ 0x0D#8 ∈ [0x31#8, 0x0D#8] := by decide

theorem witness_ResponsePrefixesAreIncomplete :
    0x0D#8 ∉ [0x31#8] ∧ 0 < [0x31#8].length + 4 ∧ 4 < [0x31#8].length + 4 := by decide

theorem witness_ResyncRecoversTheFrame :
    0x0D#8 ∉ [0x78#8, 0x79#8] ∧ 0x28#8 ∉ [0x78#8, 0x79#8] ∧ 0x0D#8 ∉ [0x31#8] := by decide

theorem witness_CorruptedFramesAreRejected :
    0x0D#8 ∉ [0x31#8, 0x32#8, 0x33#8, 0x34#8, 0x35#8] ∧
    flipBit [0x31#8, 0x32#8, 0x33#8, 0x34#8, 0x35#8] 1 0 =
      [0x31#8, 0x33#8, 0x33#8, 0x34#8, 0x35#8] ∧
    1 < [0x31#8, 0x32#8, 0x33#8, 0x34#8, 0x35#8].length ∧ 0 < 8 ∧
    0x0D#8 ∉ [0x31#8, 0x33#8, 0x33#8, 0x34#8, 0x35#8] ∧
    highByte (crc16 (responseWindow [0x31#8, 0x32#8, 0x33#8, 0x34#8, 0x35#8] true)) = 0x6C#8 ∧
    lowByte (crc16 (responseWindow [0x31#8, 0x32#8, 0x33#8, 0x34#8, 0x35#8] true)) = 0x26#8 ∧
    (0x6C#8 : Byte) ≠ 0x0D#8 ∧ (0x26#8 : Byte) ≠ 0x0D#8 ∧
    (0x28#8 : Byte) ≠ 0x0D#8 ∧ (0x7A#8 : Byte) ≠ 0x0D#8 := by decide +kernel

theorem witness_ExtractIsStableUnderAppend :
    (extract f1 false true).out ≠ .incomplete ∧ (extract [0x0D#8] false true).out ≠ .incomplete ∧
    (extract (badFrame ++ [0x41#8, 0x42#8]) false true).out ≠ .incomplete := by decide +kernel

theorem witness_FinalModeDiffersOnlyPastTheEnd :
    (extract [0x28#8, 0x0D#8] true true ≠ extract [0x28#8, 0x0D#8] false true ∧
      first [0x28#8, 0x0D#8] 0x0D#8 = some 1 ∧ first [0x28#8, 0x0D#8] 0x28#8 = some 0 ∧
      (extract [0x28#8, 0x0D#8] false true).out = .incomplete) ∧
    (extract [0x28#8, 0x0D#8, 0x41#8] true false ≠ extract [0x28#8, 0x0D#8, 0x41#8] false false ∧
      (extract [0x28#8, 0x0D#8, 0x41#8] false false).out = .incomplete) ∧
    extract [0x28#8, 0x0D#8, 0x41#8, 0x41#8] true true =
      extract [0x28#8, 0x0D#8, 0x41#8, 0x41#8] false true ∧
    (first [0x61#8, 0x28#8, 0x0D#8] 0x28#8 = some 1 ∧ first [0x61#8, 0x28#8, 0x0D#8] 0x0D#8 = some 2 ∧
      (extract [0x61#8, 0x28#8, 0x0D#8] false true).out = .incomplete) := by decide

theorem witness_CrcErrorsDiscardThroughAStopByte :
    extract [0x28#8, 0x0D#8, 0x0D#8, 0x41#8] false true = ⟨.errCrc, 3, [], 0, 0⟩ := by decide

theorem witness_DecodeCommandsApplyOneExtraction :
    ({ fresh with rx := f1 } : State).phase = .idle ∧
    extract f1 false true = ⟨.frame, 9, [0x31#8, 0x32#8, 0x33#8, 0x34#8, 0x35#8], 0, 0⟩ ∧
    extract f1 true true = ⟨.frame, 9, [0x31#8, 0x32#8, 0x33#8, 0x34#8, 0x35#8], 0, 0⟩ := by
  decide +kernel

theorem witness_ReceiveOutsideAwaitOnlyStores :
    fresh.eos = false ∧ fresh.rx.length ≠ fresh.params.rxCap ∧ fresh.phase ≠ .await ∧
    sending.eos = false ∧ sending.rx.length ≠ sending.params.rxCap ∧ sending.phase ≠ .await := by
  decide

theorem witness_ReceiveInAwaitExtractsOnce :
    waiting.eos = false ∧ ({ waiting with rx := f1Open } : State).rx.length ≠ waiting.params.rxCap ∧
    ({ waiting with rx := f1Open } : State).phase = .await ∧
    extract (f1Open ++ [0x0D#8]) false waiting.win =
      ⟨.frame, 9, [0x31#8, 0x32#8, 0x33#8, 0x34#8, 0x35#8], 0, 0⟩ := by decide +kernel

theorem witness_ReceiveOverflowDiscardsEverything :
    waiting.eos = false ∧
    ({ waiting with params := ⟨8, 3, true⟩, rx := f1Open } : State).rx.length =
      ({ waiting with params := ⟨8, 3, true⟩, rx := f1Open } : State).params.rxCap ∧
    waiting.phase = .await ∧
    (fresh.eos = false ∧ fresh.phase = .idle ∧
      ({ fresh with params := ⟨8, 3, true⟩, rx := f1Open } : State).rx.length = 8) ∧
    (sending.eos = false ∧ sending.phase = .tx ∧
      ({ sending with params := ⟨8, 3, true⟩, rx := f1Open } : State).rx.length = 8) := by decide

theorem witness_TxtakeEmitsTheFrontByte :
    ({ sending with tx := [0xAC#8, 0x0D#8] } : State).tx = 0xAC#8 :: [0x0D#8] ∧
    sending.tx = 0x0D#8 :: [] ∧ sending.eos = false ∧
    ({ sending with eos := true } : State).eos = true := by decide

theorem witness_EndOfStreamAndFailureEndTheExchange :
    waiting.phase = .await ∧ fresh.phase ≠ .await ∧ sending.phase ≠ .await ∧ sending.phase ≠ .idle ∧
    waiting.phase ≠ .idle ∧ fresh.phase = .idle := by decide

theorem witness_MissingTransportMovesHaveNoStep :
    (facing [rxbIn 0x41#8] { fresh with eos := true }).pending = rxbIn 0x41#8 :: [] ∧
    ({ fresh with eos := true } : State).eos = true ∧
    (facing [.port 0x8300#16] fresh).pending = .port 0x8300#16 :: [] ∧ fresh.tx = [] ∧
    (facing [.port 0x8101#16] fresh).pending = .port 0x8101#16 :: [] ∧
    (0x8101#16 : Word).toNat / 256 ≠ 0x80 ∧ (0x8101#16 : Word) ≠ 0x8100#16 ∧
    (0x8101#16 : Word) ≠ 0x8200#16 ∧ (0x8101#16 : Word) ≠ 0x8300#16 := by decide

theorem witness_PhaseChangesOnlyByTheTable :
    (facing [.port 0x8300#16] sending).Inv ∧
    nextOf (step (facing [.port 0x8300#16] sending)) = some (after .txtake sending) ∧
    (after .txtake sending).phase ≠ sending.phase ∧
    (facing [cmdIn 0x1200#16] fresh).Inv ∧
    nextOf (step (facing [cmdIn 0x1200#16] fresh)) = some (after .send fresh) ∧
    (after .send fresh).phase ≠ fresh.phase := by decide

theorem witness_ExchangesEndWithOneResult :
    (facing [rxbIn 0x0D#8] { waiting with rx := f1Open }).Inv ∧ waiting.phase ≠ .idle ∧
    nextOf (step (facing [rxbIn 0x0D#8] { waiting with rx := f1Open })) =
      some (after (.rxb 0x0D#8) { waiting with rx := f1Open }) ∧
    (after (.rxb 0x0D#8) { waiting with rx := f1Open }).phase = .idle ∧
    (facing [cmdIn 0x3F00#16] waiting).Inv ∧
    nextOf (step (facing [cmdIn 0x3F00#16] waiting)) = some (after .release waiting) ∧
    (after .release waiting).phase = .idle := by decide +kernel

theorem witness_IdleTransportEventsKeepTheResult :
    (facing [.port 0x8041#16] fresh).Inv ∧ fresh.phase = .idle ∧
    (facing [.port 0x8041#16] fresh).pending = .port 0x8041#16 :: [] ∧
    nextOf (step (facing [.port 0x8041#16] fresh)) = some (after (.rxb 0x41#8) fresh) ∧
    fresh.rx.length ≠ fresh.params.rxCap := by decide

theorem witness_ReceiveBufferIsAQueue :
    nextOf (step (facing [rxbIn 0x41#8] fresh)) = some (after (.rxb 0x41#8) fresh) := by decide

theorem witness_DeliveredResponseEndsTheExchange :
    waiting.phase = .await ∧ waiting.eos = false ∧ waiting.rx = [] ∧ 0x0D#8 ∉ ([] : List Byte) ∧
    ([] : List Byte).length + 4 ≤ waiting.params.rxCap ∧
    (facing [.port 0x8028#16, .port 0x80A5#16, .port 0x806A#16, .port 0x800D#16] waiting).pending =
      (frameRsp [] waiting.win).map rxbIn ++ [] ∧
    0x0D#8 ∉ List.replicate 12 0x31#8 ∧
    (List.replicate 12 0x31#8).length + 4 ≤ waiting.params.rxCap := by decide

theorem witness_OrderOfSimultaneousEvents :
    (sending.eos = false ∧ sending.rx.length ≠ sending.params.rxCap ∧ sending.phase = .tx ∧
      sending.tx = [0x0D#8]) ∧
    (waiting.eos = false ∧ ({ waiting with rx := f1Open } : State).rx.length ≠ waiting.params.rxCap ∧
      waiting.phase = .await ∧ (extract (f1Open ++ [0x0D#8]) false waiting.win).out = .frame) ∧
    (fresh.eos = false ∧ fresh.rx.length ≠ fresh.params.rxCap ∧ fresh.phase = .idle ∧
      1 ≤ fresh.params.rxCap) ∧
    (({ fresh with rx := f1Open } : State).phase = .idle ∧
      ({ fresh with rx := f1Open } : State).rx.length < fresh.params.rxCap ∧
      (extract (f1Open ++ [0x0D#8]) false fresh.win).out = .frame ∧
      (extract f1Open false fresh.win).out = .incomplete) := by decide +kernel

theorem witness_EndOfStreamFlagRules :
    fresh.eos = false ∧
    nextOf (step (facing [.port 0x8100#16] fresh)) = some { fresh with eos := true } ∧
    nextOf (step (facing [cmdIn 0x3F00#16] { fresh with eos := true })) = some fresh := by decide

theorem witness_OverflowFlagRules :
    (nextOf (step (facing [rxbIn 0x48#8] { fresh with params := ⟨8, 3, true⟩, rx := f1Open }))).map
      (·.ovf) = some true ∧
    (nextOf (step (facing [cmdIn 0x1141#16] { fresh with stage := [0#8, 0#8, 0#8] }))).map (·.sovf)
      = some true ∧
    nextOf (step (facing [cmdIn 0x3100#16] { fresh with ovf := true, sovf := true })) = some fresh := by
  decide

theorem witness_IllegalFlagRules :
    (nextOf (step (facing [cmdIn 0x0300#16] fresh))).map (·.ill) = some true ∧
    nextOf (step (facing [cmdIn 0x3100#16] { fresh with ill := true })) = some fresh := by decide

theorem witness_WindowChangesOnlyBySetcfg :
    (nextOf (step (facing [cmdIn 0x3000#16] fresh))).map (·.win) = some false ∧ fresh.win = true ∧
    (nextOf (step (facing [.reset] { fresh with win := false }))).map (·.win) = some true := by decide

theorem witness_ControlCommandsWriteOnlyTheirState :
    fresh.phase = .idle ∧ (after (.setcfg 0x01#8) { fresh with win := false }).win = true := by decide

theorem witness_CleanEntryIsReachedFromAnyState :
    (facing [cmdIn 0x3100#16, cmdIn 0x3F00#16] sending).pending =
      cmdIn 0x3100#16 :: cmdIn 0x3F00#16 :: [] ∧
    (facing [.reset] sending).pending = .reset :: [] := by decide

theorem witness_BusReadsHaveNoSideEffects :
    (facing [.read 0x00001#20] sending).pending = .read 0x00001#20 :: [] ∧
    (facing [.read 0xFFFFF#20, .read 0xFFFFF#20] sending).pending =
      .read 0xFFFFF#20 :: .read 0xFFFFF#20 :: [] := by decide

theorem witness_BusAddressesReadAsTheMapSays :
    0x0000A ≤ (0x0000A#20 : BusAddr).toNat ∧ (0x0FFFF#20 : BusAddr).toNat < 0x10000 ∧
    0x50000 ≤ (0x50000#20 : BusAddr).toNat ∧ 0x50000 ≤ (0xFFFFF#20 : BusAddr).toNat ∧
    0 < 65536 ∧ 65535 < 65536 := by decide

/-- One state for each result code and each phase. -/
theorem witness_StatusFieldsReadBack :
    ([.none, .incomplete, .frame, .errFraming, .errCrc, .errEof, .errIo, .errOvf].map
      (fun c => (statusWord { fresh with res := c }).extractLsb' 0 3)) =
        [0#3, 1#3, 2#3, 3#3, 4#3, 5#3, 6#3, 7#3] ∧
    fresh.phase = .idle ∧ sending.phase = .tx ∧ waiting.phase = .await := by decide

theorem witness_CountsNeverWrap : ({ fresh with rx := f1 } : State).Inv := by decide

end Sys2Proof.Tests
end

section
/-! SUPPORT. The decoder: the opcode maps' masks as arithmetic, what a matching row gives, and the
round trip of each map with the encoder (30_encoding.md R70 to R75). -/

namespace Sys2Proof

/-! ### The masks of the opcode maps, as arithmetic -/

/-- Masking away the `k` low bits, as the opcode maps' masks do, rounds down to a multiple of `2 ^ k`. -/
theorem toNat_and_highMask {n : Nat} (x : BitVec n) (k : Nat) :
    (x &&& (BitVec.allOnes n <<< k)).toNat = x.toNat / 2 ^ k * 2 ^ k := by
  have hshift : x &&& (BitVec.allOnes n <<< k) = (x >>> k) <<< k := by
    ext i hi
    by_cases hk : i < k
    · simp [hk]
    · simp [hk, show k + (i - k) = i by omega, BitVec.getLsbD_eq_getElem hi]
  have hle : x.toNat / 2 ^ k * 2 ^ k < 2 ^ n :=
    lt_of_le_of_lt (Nat.div_mul_le_self _ _) x.isLt
  rw [hshift, BitVec.toNat_shiftLeft, BitVec.toNat_ushiftRight, Nat.shiftLeft_eq,
    Nat.shiftRight_eq_div_pow, Nat.mod_eq_of_lt hle]

theorem and_mask_FFFF (w p : Word) : w &&& 0xFFFF#16 = p ↔ w.toNat = p.toNat := by
  rw [BitVec.toNat_eq, show (0xFFFF#16) = BitVec.allOnes 16 <<< 0 from rfl, toNat_and_highMask]
  simp

theorem and_mask_FFFE (w p : Word) : w &&& 0xFFFE#16 = p ↔ w.toNat / 2 * 2 = p.toNat := by
  rw [BitVec.toNat_eq, show (0xFFFE#16) = BitVec.allOnes 16 <<< 1 from rfl, toNat_and_highMask,
    pow_one]

theorem and_mask_FF00 (w p : Word) : w &&& 0xFF00#16 = p ↔ w.toNat / 256 * 256 = p.toNat := by
  rw [BitVec.toNat_eq, show (0xFF00#16) = BitVec.allOnes 16 <<< 8 from rfl, toNat_and_highMask]
  norm_num

theorem lowField_toNat (w : Word) : (lowField w).toNat = w.toNat % 256 := by
  simp [lowField]

/-- An operand fills the low byte of a pattern that leaves it empty. -/
theorem withOperand_toNat {p : Word} (b : Byte) (hp : p.toNat % 256 = 0) :
    (withOperand p b).toNat = p.toNat + b.toNat := by
  have hshift : p.toNat = (p.toNat / 256) <<< 8 := by
    rw [Nat.shiftLeft_eq]; omega
  rw [withOperand, BitVec.toNat_or, BitVec.toNat_setWidth_of_le (by omega), hshift,
    Nat.shiftLeft_add_eq_or_of_lt b.isLt]

/-- SETCFG's reserved bits are 0, as `wellFormed` checks it (R72). -/
theorem wellFormed_setcfg_iff (imm : Byte) : (Instr.setcfg imm).wellFormed = true ↔ imm.toNat < 2 := by
  rw [Instr.wellFormed, beq_iff_eq, BitVec.toNat_eq,
    show (0xFE#8) = BitVec.allOnes 8 <<< 1 from rfl, toNat_and_highMask]
  simp

/-! ### The lookup -/

theorem lookupRow_cons (r : OpcodeRow) (rest : List OpcodeRow) (w : Word) :
    lookupRow (r :: rest) w =
      if w &&& r.mask = r.pattern then some (r.build (lowField w)) else lookupRow rest w := rfl

@[simp] theorem lookupRow_nil (w : Word) : lookupRow [] w = none := rfl

/-- An instruction found is the one a matching row builds. -/
theorem exists_row_of_lookupRow {rows : List OpcodeRow} {w : Word} {i : Instr}
    (h : lookupRow rows w = some i) :
    ∃ r ∈ rows, w &&& r.mask = r.pattern ∧ r.build (lowField w) = i := by
  induction rows with
  | nil => simp at h
  | cons r rest ih =>
    rw [lookupRow_cons] at h
    split at h
    · next hr => exact ⟨r, by simp, hr, by simpa using h⟩
    · obtain ⟨r', hmem, hr'⟩ := ih h
      exact ⟨r', by simp [hmem], hr'⟩

/-- A word that matches a row is found. -/
theorem lookupRow_ne_none {rows : List OpcodeRow} {w : Word} {r : OpcodeRow} (hr : r ∈ rows)
    (h : w &&& r.mask = r.pattern) : lookupRow rows w ≠ none := by
  induction rows with
  | nil => simp at hr
  | cons r' rest ih =>
    rw [lookupRow_cons]
    split
    · simp
    · next hne =>
      rcases List.mem_cons.mp hr with rfl | hmem
      · exact absurd h hne
      · exact ih hmem

/-! ### The rows: what a matching word is -/

theorem eq_of_mask_FFFF {w p : Word} (h : w &&& 0xFFFF#16 = p) : p = w :=
  BitVec.eq_of_toNat_eq ((and_mask_FFFF w p).mp h).symm

theorem withOperand_lowField {w p : Word} (h : w &&& 0xFF00#16 = p) :
    withOperand p (lowField w) = w := by
  have hp := (and_mask_FF00 w p).mp h
  apply BitVec.eq_of_toNat_eq
  rw [withOperand_toNat _ (by omega), lowField_toNat]
  omega

theorem lowField_of_mask_FFFE {w : Word} (h : w &&& 0xFFFE#16 = 0x3000#16) :
    (lowField w).toNat < 2 ∧ withOperand 0x3000#16 (lowField w) = w := by
  have hw := (and_mask_FFFE w _).mp h
  rw [BitVec.toNat_ofNat] at hw
  have hlow := lowField_toNat w
  refine ⟨by omega, BitVec.eq_of_toNat_eq ?_⟩
  rw [withOperand_toNat _ (by simp), BitVec.toNat_ofNat]
  omega

/-- A command word is the word of the command it decodes to, which is well formed (R73). -/
theorem encode_of_decodeCommand {w : Word} {i : Instr} (h : decodeCommand w = some i) :
    i.isTransport = false ∧ i.wellFormed = true ∧ encode i = w := by
  obtain ⟨r, hmem, hr, rfl⟩ := exists_row_of_lookupRow h
  simp only [commandRows, List.mem_cons, List.not_mem_nil, or_false] at hmem
  rcases hmem with rfl | rfl | rfl | rfl | rfl | rfl | rfl | rfl | rfl | rfl | rfl
  · exact ⟨rfl, rfl, eq_of_mask_FFFF hr⟩
  · exact ⟨rfl, rfl, eq_of_mask_FFFF hr⟩
  · exact ⟨rfl, rfl, withOperand_lowField hr⟩
  · exact ⟨rfl, rfl, eq_of_mask_FFFF hr⟩
  · exact ⟨rfl, rfl, withOperand_lowField hr⟩
  · exact ⟨rfl, rfl, eq_of_mask_FFFF hr⟩
  · exact ⟨rfl, rfl, eq_of_mask_FFFF hr⟩
  · exact ⟨rfl, rfl, eq_of_mask_FFFF hr⟩
  · obtain ⟨hlt, hw⟩ := lowField_of_mask_FFFE hr
    exact ⟨rfl, (wellFormed_setcfg_iff _).mpr hlt, hw⟩
  · exact ⟨rfl, rfl, eq_of_mask_FFFF hr⟩
  · exact ⟨rfl, rfl, eq_of_mask_FFFF hr⟩

/-- An event word is the word of the event it decodes to (R74). -/
theorem encode_of_decodeTransport {w : Word} {i : Instr} (h : decodeTransport w = some i) :
    i.isTransport = true ∧ i.wellFormed = true ∧ encode i = w := by
  obtain ⟨r, hmem, hr, rfl⟩ := exists_row_of_lookupRow h
  simp only [transportRows, List.mem_cons, List.not_mem_nil, or_false] at hmem
  rcases hmem with rfl | rfl | rfl | rfl
  · exact ⟨rfl, rfl, withOperand_lowField hr⟩
  · exact ⟨rfl, rfl, eq_of_mask_FFFF hr⟩
  · exact ⟨rfl, rfl, eq_of_mask_FFFF hr⟩
  · exact ⟨rfl, rfl, eq_of_mask_FFFF hr⟩

theorem lowField_withOperand {p : Word} (b : Byte) (hp : p.toNat % 256 = 0) :
    lowField (withOperand p b) = b := by
  apply BitVec.eq_of_toNat_eq
  rw [lowField_toNat, withOperand_toNat b hp]
  omega

/-- A well-formed command's word decodes to it (R73). -/
theorem decodeCommand_encode {i : Instr} (hcmd : i.isTransport = false) (hwf : i.wellFormed = true) :
    decodeCommand (encode i) = some i := by
  cases i with
  | nop | crcinit | stclr | send | decode | decodef | clrflags | release => rfl
  | crcbyte b =>
    have hw := withOperand_toNat (p := 0x0200#16) b rfl
    simp only [decodeCommand, commandRows, encode, lookupRow_cons, and_mask_FFFF, and_mask_FF00, hw,
      BitVec.toNat_ofNat]
    rw [if_neg (by omega), if_neg (by omega), if_pos (by omega), lowField_withOperand b rfl]
  | stbyte b =>
    have hw := withOperand_toNat (p := 0x1100#16) b rfl
    simp only [decodeCommand, commandRows, encode, lookupRow_cons, and_mask_FFFF, and_mask_FF00, hw,
      BitVec.toNat_ofNat]
    rw [if_neg (by omega), if_neg (by omega), if_neg (by omega), if_neg (by omega),
      if_pos (by omega), lowField_withOperand b rfl]
  | setcfg imm =>
    rw [wellFormed_setcfg_iff] at hwf
    have hw := withOperand_toNat (p := 0x3000#16) imm rfl
    simp only [decodeCommand, commandRows, encode, lookupRow_cons, and_mask_FFFF, and_mask_FF00,
      and_mask_FFFE, hw, BitVec.toNat_ofNat]
    rw [if_neg (by omega), if_neg (by omega), if_neg (by omega), if_neg (by omega),
      if_neg (by omega), if_neg (by omega), if_neg (by omega), if_neg (by omega),
      if_pos (by omega), lowField_withOperand imm rfl]
  | rxb _ | rxeos | ioerr | txtake => cases hcmd

/-- An event's word decodes to it (R74). -/
theorem decodeTransport_encode {i : Instr} (hport : i.isTransport = true) :
    decodeTransport (encode i) = some i := by
  cases i with
  | rxb d =>
    have hw := withOperand_toNat (p := 0x8000#16) d rfl
    simp only [decodeTransport, transportRows, encode, lookupRow_cons, and_mask_FF00, hw,
      BitVec.toNat_ofNat]
    rw [if_pos (by omega), lowField_withOperand d rfl]
  | rxeos | ioerr | txtake => rfl
  | _ => cases hport

/-! ### The commands with a phase condition -/

/-- The commands with a phase condition: SEND, DECODE, DECODEF and SETCFG act in IDLE only (R73). -/
def Instr.isGated : Instr → Bool
  | .send | .decode | .decodef | .setcfg _ => true
  | _ => false

theorem not_isTransport_of_isGated {i : Instr} (h : i.isGated = true) : i.isTransport = false := by
  cases i with
  | send | decode | decodef | setcfg _ => rfl
  | _ => cases h

end Sys2Proof

namespace Sys2Proof.Machine

/-! ### The illegal command words -/

/-- SETCFG's reserved bits are 0, as its meaning checks it (R201). -/
theorem setcfgReservedZero_iff (imm : Byte) : setcfgReservedZero imm = true ↔ imm.toNat < 2 := by
  rw [setcfgReservedZero, beq_iff_eq, BitVec.toNat_eq, BitVec.extractLsb'_toNat,
    Nat.shiftRight_eq_div_pow]
  have := imm.isLt
  simp
  omega

/-- The words R75 lists are those that match no row, and those of a gated command outside IDLE. -/
theorem illegalCommand_iff (w : Word) (ph : Phase) :
    IllegalCommand w.toNat ph ↔
      decodeCommand w = none ∨ ∃ i, decodeCommand w = some i ∧ i.isGated = true ∧ ph ≠ .idle := by
  cases hd : decodeCommand w with
  | none =>
    have hrow : ∀ r ∈ commandRows, w &&& r.mask ≠ r.pattern :=
      fun r hr hm => lookupRow_ne_none hr hm hd
    simp only [commandRows, List.forall_mem_cons, and_mask_FFFF, and_mask_FF00, and_mask_FFFE, ne_eq,
      BitVec.toNat_ofNat] at hrow
    have hw := w.isLt
    simp only [IllegalCommand, List.mem_cons, List.not_mem_nil, or_false, true_or, iff_true]
    omega
  | some i =>
    obtain ⟨hcmd, hwf, rfl⟩ := encode_of_decodeCommand hd
    simp only [IllegalCommand, List.mem_cons, List.not_mem_nil, or_false, reduceCtorEq, false_or,
      Option.some.injEq, exists_eq_left']
    cases i with
    | nop | crcinit | stclr | send | decode | decodef | clrflags | release =>
      simp [encode, Instr.isGated]
    | crcbyte b =>
      simp [encode, Instr.isGated, withOperand_toNat]
      omega
    | stbyte b =>
      simp [encode, Instr.isGated, withOperand_toNat]
      omega
    | setcfg imm =>
      rw [wellFormed_setcfg_iff] at hwf
      have hw := withOperand_toNat (p := 0x3000#16) imm rfl
      have hop : (encode (.setcfg imm)).toNat / 256 = 0x30 := by simp [encode, hw]; omega
      have himm : ¬ 2 ≤ (encode (.setcfg imm)).toNat % 256 := by simp [encode, hw]; omega
      simp [hop, himm, Instr.isGated]
    | rxb _ | rxeos | ioerr | txtake => cases hcmd

end Sys2Proof.Machine
end

section
/-! SUPPORT. What the next input does, and the sticky flags over a step (10_state.md R31 to R34). -/

namespace Sys2Proof

/-- The input that carries the word of `i`: on the transport port for an event, at CMD for a command
(R71). -/
def Instr.toInput (i : Instr) : Machine.Input :=
  if i.isTransport then .port (encode i) else .write Machine.cmdAddr (encode i)

/-- The instruction an input performs; none for a read, the reset, and a word that is no instruction
(20_memory.md R54, 30_encoding.md R73, R74). -/
def Machine.Input.instr : Machine.Input → Option Instr
  | .write a v => if a = Machine.cmdAddr then decodeCommand v else none
  | .read _ => none
  | .port w => decodeTransport w
  | .reset => none

end Sys2Proof

namespace Sys2Proof.Machine

variable {s t : State} {inp : Input} {i j : Instr}

/-! ### What the next input does -/

theorem instr_write_eq_some {a : BusAddr} {v : Word} :
    (Input.write a v).instr = some i ↔ a = cmdAddr ∧ decodeCommand v = some i := by
  change (if a = cmdAddr then decodeCommand v else none) = some i ↔ _
  split <;> simp [*]

@[simp] theorem instr_read (a : BusAddr) : (Input.read a).instr = none := rfl

@[simp] theorem instr_port (w : Word) : (Input.port w).instr = decodeTransport w := rfl

@[simp] theorem instr_reset : Input.reset.instr = none := rfl

theorem instr_toInput (hwf : i.wellFormed = true) : i.toInput.instr = some i := by
  unfold Instr.toInput
  split
  · next ht => exact decodeTransport_encode ht
  · next ht =>
    exact instr_write_eq_some.mpr ⟨rfl, decodeCommand_encode (by simpa using ht) hwf⟩

/-- An instruction is performed by one input only, the one that carries its word. -/
theorem toInput_of_instr (h : inp.instr = some i) : i.wellFormed = true ∧ inp = i.toInput := by
  cases inp with
  | write a v =>
    obtain ⟨rfl, hv⟩ := instr_write_eq_some.mp h
    obtain ⟨ht, hwf, rfl⟩ := encode_of_decodeCommand hv
    exact ⟨hwf, by simp [Instr.toInput, ht]⟩
  | port w =>
    obtain ⟨ht, hwf, rfl⟩ := encode_of_decodeTransport h
    exact ⟨hwf, by simp [Instr.toInput, ht]⟩
  | read a => cases h
  | reset => cases h

theorem eq_toInput_iff (hj : j.wellFormed = true) (h : inp.instr = some i) :
    inp = j.toInput ↔ i = j := by
  constructor
  · rintro rfl
    simpa [instr_toInput hj] using h.symm
  · rintro rfl
    exact (toInput_of_instr h).2

/-- An input that performs nothing carries no instruction's word. -/
theorem ne_toInput (hj : j.wellFormed = true) (h : inp.instr = none) : inp ≠ j.toInput := by
  rintro rfl
  simp [instr_toInput hj] at h

/-- An input that performs an instruction is delivered as its meaning. -/
theorem deliver_of_instr (h : inp.instr = some i) : deliver inp s = exec i s := by
  cases inp with
  | write a v =>
    obtain ⟨rfl, hv⟩ := instr_write_eq_some.mp h
    simp [deliver, busWrite, performCommand, hv]
  | port w =>
    rw [instr_port] at h
    simp [deliver, performTransport, h]
  | read a => cases h
  | reset => cases h

/-- The bus writes of R224 that set ILL: any outside CMD, and at CMD an illegal command word. -/
def Input.IllegalIn (inp : Input) (ph : Phase) : Prop :=
  ∃ (a : BusAddr) (w : Word), inp = .write a w ∧ (a ≠ cmdAddr ∨ IllegalCommand w.toNat ph)

theorem illegalIn_iff_of_instr {ph : Phase} (h : inp.instr = some i) :
    inp.IllegalIn ph ↔ i.isGated = true ∧ ph ≠ .idle := by
  cases inp with
  | write a v =>
    obtain ⟨rfl, hv⟩ := instr_write_eq_some.mp h
    simp [Input.IllegalIn, illegalCommand_iff, hv]
  | port w =>
    obtain ⟨ht, _, _⟩ := encode_of_decodeTransport h
    have hg : i.isGated ≠ true := fun hg => by simp [not_isTransport_of_isGated hg] at ht
    simp [Input.IllegalIn, hg]
  | read a => cases h
  | reset => cases h

/-- All that a step with a next state can do, by the input it takes. -/
theorem step_input_cases (h : step s = .next t) :
    (s.pending = [] ∧ t = s) ∨
    ∃ inp rest, s.pending = inp :: rest ∧
      ((∃ i, inp.instr = some i ∧ exec i { s with pending := rest } = .next t) ∨
       (inp.instr = none ∧ (∀ ph, inp.IllegalIn ph) ∧ t = raiseIll { s with pending := rest }) ∨
       (∃ a, inp = .read a ∧ t = answerRead a { s with pending := rest }) ∨
       (inp = .reset ∧ t = resetBlock { s with pending := rest })) := by
  refine (step_cases h).imp_right ?_
  rintro ⟨inp, rest, hp, hd⟩
  refine ⟨inp, rest, hp, ?_⟩
  rcases deliver_cases hd with ⟨v, i, rfl, hi, he⟩ | ⟨v, rfl, hn, rfl⟩ | ⟨a, v, rfl, ha, rfl⟩ |
    ⟨a, rfl, rfl⟩ | ⟨w, i, rfl, hi, he⟩ | ⟨rfl, rfl⟩
  · exact .inl ⟨i, by simpa [Input.instr] using hi, he⟩
  · exact .inr (.inl ⟨by simpa [Input.instr] using hn,
      fun ph => ⟨cmdAddr, v, rfl, .inr ((illegalCommand_iff v ph).mpr (.inl hn))⟩, rfl⟩)
  · exact .inr (.inl ⟨by simp [Input.instr, ha], fun _ => ⟨a, v, rfl, .inl ha⟩, rfl⟩)
  · exact .inr (.inr (.inl ⟨a, rfl, rfl⟩))
  · exact .inl ⟨i, hi, he⟩
  · exact .inr (.inr (.inr ⟨rfl, rfl⟩))

/-! ### The flags after the shared operations -/

/-- A sticky flag, `before` and `after`: clear, it becomes set exactly on `set`; set, it becomes clear
exactly on `clear`. -/
def Sticky (before after : Bool) (set clear : Prop) : Prop :=
  (before = false → (after = true ↔ set)) ∧ (before = true → (after = false ↔ clear))

@[simp] theorem actOrIll_eos (c : Bool) (f : State → State) (s : State) :
    (actOrIll c f s).eos = if c then (f s).eos else s.eos := by cases c <;> rfl

@[simp] theorem actOrIll_ovf (c : Bool) (f : State → State) (s : State) :
    (actOrIll c f s).ovf = if c then (f s).ovf else s.ovf := by cases c <;> rfl

@[simp] theorem actOrIll_sovf (c : Bool) (f : State → State) (s : State) :
    (actOrIll c f s).sovf = if c then (f s).sovf else s.sovf := by cases c <;> rfl

@[simp] theorem actOrIll_ill (c : Bool) (f : State → State) (s : State) :
    (actOrIll c f s).ill = if c then (f s).ill else true := by cases c <;> rfl

@[simp] theorem extractOnce_eos (final : Bool) (s : State) : (extractOnce final s).eos = s.eos := rfl
@[simp] theorem extractOnce_ovf (final : Bool) (s : State) : (extractOnce final s).ovf = s.ovf := rfl
@[simp] theorem extractOnce_sovf (final : Bool) (s : State) :
    (extractOnce final s).sovf = s.sovf := rfl
@[simp] theorem extractOnce_ill (final : Bool) (s : State) : (extractOnce final s).ill = s.ill := rfl

/-- Receiving a byte sets OVF on a full buffer and leaves the other flags (R175). -/
theorem receive_flags (d : Byte) (s : State) :
    (receive d s).eos = s.eos ∧ (receive d s).sovf = s.sovf ∧ (receive d s).ill = s.ill ∧
    Sticky s.ovf (receive d s).ovf (s.rx.length = s.params.rxCap) False := by
  rcases receive_cases d s with ⟨hfull, h⟩ | ⟨hroom, _, h⟩ | ⟨hroom, _, h⟩
  · rcases overflow_cases s with ⟨_, ho⟩ | ⟨_, ho⟩ <;> simp [h, ho, hfull, Sticky]
  · rcases autoExtract_cases (storeReceived d s) with ⟨_, ha⟩ | ⟨_, ha⟩ <;>
      simp [h, ha, hroom, Sticky]
  · simp [h, hroom, Sticky]

/-- Taking a request byte leaves the flags. -/
theorem afterTake_flags (s : State) :
    (afterTake s).eos = s.eos ∧ (afterTake s).ovf = s.ovf ∧ (afterTake s).sovf = s.sovf ∧
    (afterTake s).ill = s.ill := by
  rcases afterTake_cases s with ⟨_, h⟩ | ⟨_, _, h⟩ | ⟨_, _, h⟩ <;> simp [h]

/-! ### The flags after an instruction -/

/-- The four flags over an instruction (10_state.md R31 to R34). -/
structure FlagsAfter (i : Instr) (s t : State) : Prop where
  eos : Sticky s.eos t.eos (i = .rxeos) (i = .release)
  ovf : Sticky s.ovf t.ovf (s.rx.length = s.params.rxCap ∧ ∃ d, i = .rxb d) (i = .clrflags)
  sovf : Sticky s.sovf t.sovf (s.stage.length = s.params.stageCap ∧ ∃ b, i = .stbyte b)
    (i = .clrflags)
  ill : Sticky s.ill t.ill (i.isGated = true ∧ s.phase ≠ .idle) (i = .clrflags)

theorem exec_flags (hwf : i.wellFormed = true) (h : exec i s = .next t) : FlagsAfter i s t := by
  cases i with
  | nop | crcinit | crcbyte _ | stclr | clrflags | release =>
    cases h
    constructor <;> simp [Sticky, Instr.isGated]
  | stbyte b =>
    cases h
    by_cases hfull : s.stage.length = s.params.stageCap <;>
      constructor <;> simp [Sticky, hfull, Instr.isGated]
  | send | decode | decodef =>
    cases h
    by_cases hp : s.phase = .idle <;> constructor <;> simp [Sticky, hp, Instr.isGated]
  | setcfg imm =>
    have hz := (setcfgReservedZero_iff imm).mpr ((wellFormed_setcfg_iff imm).mp hwf)
    cases h
    by_cases hp : s.phase = .idle <;> constructor <;> simp [Sticky, hz, hp, Instr.isGated]
  | rxb d =>
    obtain ⟨_, rfl⟩ := execRxb_eq_next h
    obtain ⟨heos, hsovf, hill, hovf⟩ := receive_flags d s
    refine ⟨?_, by simpa using hovf, ?_, ?_⟩ <;> simp [Sticky, heos, hsovf, hill, Instr.isGated]
  | rxeos =>
    cases h
    by_cases hp : s.phase = .await <;> constructor <;> simp [Sticky, hp, Instr.isGated]
  | ioerr =>
    cases h
    by_cases hp : s.phase = .tx ∨ s.phase = .await <;>
      constructor <;> simp [Sticky, hp, Instr.isGated]
  | txtake =>
    obtain ⟨b, rest, _, rfl⟩ := execTxtake_eq_next h
    obtain ⟨heos, hovf, hsovf, hill⟩ := afterTake_flags (emitFront b rest s)
    constructor <;> simp [Sticky, heos, hovf, hsovf, hill, Instr.isGated]

/-! ### The flags after a step -/

/-- The four flags over a step, by the input the step takes (10_state.md R31 to R34). -/
structure StepFlags (s t : State) : Prop where
  eos : Sticky s.eos t.eos (s.pending.head? = some Instr.rxeos.toInput)
    (s.pending.head? = some Instr.release.toInput ∨ s.pending.head? = some .reset)
  ovf : Sticky s.ovf t.ovf
    (s.rx.length = s.params.rxCap ∧ ∃ d, s.pending.head? = some (Instr.rxb d).toInput)
    (s.pending.head? = some Instr.clrflags.toInput ∨ s.pending.head? = some .reset)
  sovf : Sticky s.sovf t.sovf
    (s.stage.length = s.params.stageCap ∧ ∃ b, s.pending.head? = some (Instr.stbyte b).toInput)
    (s.pending.head? = some Instr.clrflags.toInput ∨ s.pending.head? = some .reset)
  ill : Sticky s.ill t.ill
    (∃ inp, s.pending.head? = some inp ∧ inp.IllegalIn s.phase)
    (s.pending.head? = some Instr.clrflags.toInput ∨ s.pending.head? = some .reset)

theorem step_flags (h : step s = .next t) : StepFlags s t := by
  rcases step_input_cases h with ⟨hp, rfl⟩ | ⟨inp, rest, hp, ⟨i, hi, he⟩ | ⟨hi, hill, rfl⟩ |
    ⟨a, rfl, rfl⟩ | ⟨rfl, rfl⟩⟩
  · constructor <;> simp [Sticky, hp]
  · obtain ⟨heos, hovf, hsovf, hill⟩ := exec_flags (toInput_of_instr hi).1 he
    have hrxeos := eq_toInput_iff (j := .rxeos) rfl hi
    have hrelease := eq_toInput_iff (j := .release) rfl hi
    have hclr := eq_toInput_iff (j := .clrflags) rfl hi
    have hrxb : ∀ d, inp = (Instr.rxb d).toInput ↔ i = .rxb d := fun d => eq_toInput_iff rfl hi
    have hstbyte : ∀ b, inp = (Instr.stbyte b).toInput ↔ i = .stbyte b :=
      fun b => eq_toInput_iff rfl hi
    have hreset : inp ≠ .reset := by rintro rfl; cases hi
    constructor
    · simpa [hp, hreset, hrxeos, hrelease] using heos
    · simpa [hp, hreset, hrxb, hclr] using hovf
    · simpa [hp, hreset, hstbyte, hclr] using hsovf
    · simpa [hp, hreset, hclr, illegalIn_iff_of_instr hi] using hill
  · obtain ⟨a, w, rfl, _⟩ := hill .idle
    have hrxeos := ne_toInput (j := .rxeos) rfl hi
    have hrelease := ne_toInput (j := .release) rfl hi
    have hclr := ne_toInput (j := .clrflags) rfl hi
    have hrxb : ∀ d, .write a w ≠ (Instr.rxb d).toInput := fun d => ne_toInput rfl hi
    have hstbyte : ∀ b, .write a w ≠ (Instr.stbyte b).toInput := fun b => ne_toInput rfl hi
    constructor
    · simp [Sticky, hp, hrxeos, hrelease]
    · simp [Sticky, hp, hrxb, hclr]
    · simp [Sticky, hp, hstbyte, hclr]
    · simp [Sticky, hp, hclr, hill]
  · constructor <;> simp [Sticky, hp, Instr.toInput, Instr.isTransport, Input.IllegalIn]
  · constructor <;> simp [Sticky, hp, Instr.toInput, Instr.isTransport, Input.IllegalIn]

/-- A step with a next state delivers no byte after end of stream (R172). -/
theorem eos_of_step_rxb {d : Byte} {rest : List Input} (hp : s.pending = (Instr.rxb d).toInput :: rest)
    (h : step s = .next t) : s.eos = false := by
  rw [step_of_input hp, deliver_of_instr (instr_toInput rfl)] at h
  exact (execRxb_eq_next h).1

end Sys2Proof.Machine

section
open Sys2Proof Sys2Proof.Machine

/-- Settles O51: EOS as a sticky flag of the step, and no RXB step while it is set. -/
theorem endOfStreamFlagRules : Obligations.EndOfStreamFlagRules := by
  unfold Obligations.EndOfStreamFlagRules
  intro s t h
  obtain ⟨hset, hclear⟩ := (step_flags h).eos
  simp only [List.head?_eq_some_iff, ← exists_or] at hset hclear
  refine ⟨hset, hclear, fun hs d rest hp => ?_⟩
  simp [eos_of_step_rxb hp h] at hs

/-- Settles O52: OVF and SOVF as sticky flags of the step. -/
theorem overflowFlagRules : Obligations.OverflowFlagRules := by
  unfold Obligations.OverflowFlagRules
  intro s t h
  obtain ⟨hovf, hovfClear⟩ := (step_flags h).ovf
  obtain ⟨hsovf, hsovfClear⟩ := (step_flags h).sovf
  simp only [List.head?_eq_some_iff, ← exists_or] at hovf hovfClear hsovf hsovfClear
  exact ⟨hovf, hsovf, hovfClear, hsovfClear⟩

/-- Settles O53: ILL as a sticky flag of the step. -/
theorem illegalFlagRules : Obligations.IllegalFlagRules := by
  unfold Obligations.IllegalFlagRules
  intro s t h
  obtain ⟨hset, hclear⟩ := (step_flags h).ill
  simp only [List.head?_eq_some_iff, ← exists_or] at hset hclear
  refine ⟨fun hs => (hset hs).trans ⟨?_, ?_⟩, hclear⟩
  · rintro ⟨_, ⟨rest, hp⟩, a, w, rfl, hill⟩
    exact ⟨a, w, rest, hp, hill⟩
  · rintro ⟨a, w, rest, hp, hill⟩
    exact ⟨_, ⟨rest, hp⟩, a, w, rfl, hill⟩

end
end

section
/-! SUPPORT. The invariant over a step and over a run (10_state.md R40). -/

namespace Sys2Proof.Machine

variable {s t : State} {inp : Input} {i : Instr}

/-! ### The invariant in two parts -/

/-- The part of the invariant about sizes: the capacities and the counters' ranges. -/
structure State.Bounded (s : State) : Prop where
  legal : s.params.Legal
  rx : s.rx.length ≤ s.params.rxCap
  stage : s.stage.length ≤ s.params.stageCap
  tx : s.tx.length ≤ s.params.stageCap + 3
  pl : s.pl.length + 4 ≤ s.params.rxCap
  consumed : s.consumed.toNat ≤ s.params.rxCap
  skip : s.skip.toNat ≤ s.params.rxCap
  cand : s.cand ≠ 3#2

/-- The part of the invariant about the sequencer: what each phase says of `tx`, `pl`, RES and EOS. -/
structure State.Sequenced (s : State) : Prop where
  tx_iff : s.phase = .tx ↔ s.tx ≠ []
  frame_of_pl : s.pl ≠ [] → s.res = .frame
  eos_of_await : s.phase = .await → s.eos = false
  noResult : s.NoResultInExchange

theorem Phase.code_ne_three (ph : Phase) : ph.code ≠ 3#2 := by cases ph <;> decide

theorem inv_iff : s.Inv ↔ s.Bounded ∧ s.Sequenced := by
  constructor
  · rintro ⟨hlegal, ⟨htx, ⟨hrx, hstage, htxLen⟩, hframe, heos, _, hcand⟩, hno, hpl, hcons, hskip⟩
    exact ⟨⟨hlegal, hrx, hstage, htxLen, hpl, hcons, hskip, hcand⟩, ⟨htx, hframe, heos, hno⟩⟩
  · rintro ⟨hb, hq⟩
    exact ⟨hb.legal, ⟨hq.tx_iff, ⟨hb.rx, hb.stage, hb.tx⟩, hq.frame_of_pl, hq.eos_of_await,
      s.phase.code_ne_three, hb.cand⟩, hq.noResult, hb.pl, hb.consumed, hb.skip⟩

/-! ### The sizes -/

/-- Applying the extraction of a buffer that fits leaves every size in bounds. -/
theorem applyExtraction_bounded (hs : s.Bounded) {b : List Byte} (hb : b.length ≤ s.params.rxCap)
    (final w : Bool) : (applyExtraction (extract b final w) s).Bounded := by
  obtain ⟨hn, hk, hi, hpay, -, -⟩ := extract_bounds b final w
  refine { hs with rx := ?rx, pl := ?pl, consumed := ?consumed, skip := ?skip, cand := ?cand }
  case rx => simpa using hs.rx.trans (Nat.le_add_right _ _)
  case pl =>
    rw [applyExtraction_pl]
    split
    · next hf => exact (hpay hf).trans hb
    · exact hs.pl
  case consumed => simpa using (Nat.mod_le _ _).trans (hn.trans hb)
  case skip => simpa using (Nat.mod_le _ _).trans (hk.trans hb)
  case cand =>
    rw [applyExtraction_cand]
    interval_cases (extract b final w).i <;> decide

theorem overflow_bounded (hs : s.Bounded) : (overflow s).Bounded := by
  have hd : (discardReceived s).Bounded :=
    { hs with
      rx := Nat.zero_le _
      consumed := (by simpa [lengthWord] using (Nat.mod_le _ _).trans hs.rx)
      skip := Nat.zero_le _
      cand := (by simp) }
  rcases overflow_cases s with ⟨_, h⟩ | ⟨_, h⟩ <;> rw [h]
  · exact { hd with }
  · exact hd

theorem receive_bounded (hs : s.Bounded) (d : Byte) : (receive d s).Bounded := by
  have hstore (hroom : s.rx.length ≠ s.params.rxCap) : (storeReceived d s).Bounded :=
    { hs with rx := by simpa using Nat.lt_of_le_of_ne hs.rx hroom }
  rcases receive_cases d s with ⟨_, h⟩ | ⟨hroom, _, h⟩ | ⟨hroom, _, h⟩ <;> rw [h]
  · exact overflow_bounded hs
  · have ha := applyExtraction_bounded (hstore hroom) (hstore hroom).rx false s.win
    rcases autoExtract_cases (storeReceived d s) with ⟨_, h'⟩ | ⟨_, h'⟩ <;> rw [h']
    · exact ha
    · exact { ha with }
  · exact hstore hroom

/-- A gated command keeps what its action keeps in IDLE and `raise ILL()` keeps. -/
theorem actOrIll_keeps {P : State → Prop} {c : Bool} {f : State → State}
    (hact : c = true → P (f s)) (hill : P (raiseIll s)) : P (actOrIll c f s) := by
  rcases actOrIll_cases c f s with ⟨hc, h⟩ | ⟨_, h⟩ <;> rw [h]
  · exact hact hc
  · exact hill

theorem extractOnce_bounded (hs : s.Bounded) (final : Bool) : (extractOnce final s).Bounded :=
  applyExtraction_bounded (s := dropPayload s)
    { hs with pl := (Nat.le_add_left _ _).trans hs.pl } hs.rx final s.win

theorem startExchange_bounded (hs : s.Bounded) : (startExchange s).Bounded :=
  { hs with
    tx := (by simpa using hs.stage)
    pl := (Nat.le_add_left _ _).trans hs.pl
    consumed := Nat.zero_le _
    skip := Nat.zero_le _
    cand := (by simp) }

theorem forfeit_bounded (hs : s.Bounded) : (forfeit s).Bounded :=
  { hs with
    rx := Nat.zero_le _
    tx := Nat.zero_le _
    pl := (Nat.le_add_left _ _).trans hs.pl
    consumed := Nat.zero_le _
    skip := Nat.zero_le _
    cand := (by simp) }

theorem resetBlock_bounded (hs : s.Bounded) : (resetBlock s).Bounded :=
  { forfeit_bounded hs with stage := Nat.zero_le _ }

theorem afterTake_bounded (hs : s.Bounded) : (afterTake s).Bounded := by
  rcases afterTake_cases s with ⟨_, h⟩ | ⟨_, _, h⟩ | ⟨_, _, h⟩ <;> rw [h]
  · exact hs
  · exact { hs with }
  · exact { hs with }

/-- Every instruction keeps the sizes in bounds, in every phase. -/
theorem exec_bounded (hs : s.Bounded) (h : exec i s = .next t) : t.Bounded := by
  cases i with
  | nop | crcinit | crcbyte _ | clrflags => cases h; exact { hs with }
  | stclr => cases h; exact { hs with stage := Nat.zero_le _ }
  | stbyte b =>
    cases h
    split
    · exact { hs with }
    · next hroom => exact { hs with stage := by simpa using Nat.lt_of_le_of_ne hs.stage hroom }
  | send => cases h; exact actOrIll_keeps (fun _ => startExchange_bounded hs) { hs with }
  | decode => cases h; exact actOrIll_keeps (fun _ => extractOnce_bounded hs false) { hs with }
  | decodef => cases h; exact actOrIll_keeps (fun _ => extractOnce_bounded hs true) { hs with }
  | setcfg imm => cases h; exact actOrIll_keeps (fun _ => { hs with }) { hs with }
  | release => cases h; exact forfeit_bounded hs
  | rxb d => obtain ⟨_, rfl⟩ := execRxb_eq_next h; exact receive_bounded hs d
  | rxeos => cases h; split <;> exact { hs with }
  | ioerr =>
    cases h
    split
    · exact { hs with tx := Nat.zero_le _ }
    · exact hs
  | txtake =>
    obtain ⟨b, rest, hb, rfl⟩ := execTxtake_eq_next h
    have htx := hs.tx
    rw [hb, List.length_cons] at htx
    exact afterTake_bounded (s := emitFront b rest s) { hs with tx := (Nat.le_succ _).trans htx }

/-! ### The sequencer -/

/-- In IDLE nothing waits to be sent, and a payload stands only beside RES = FRAME. -/
theorem sequenced_of_idle (hp : s.phase = .idle) (htx : s.tx = [])
    (hpl : s.pl ≠ [] → s.res = .frame) : s.Sequenced :=
  ⟨by simp [hp, htx], hpl, by simp [hp], fun h => absurd hp h⟩

theorem State.Sequenced.tx_eq_nil (hs : s.Sequenced) (hp : s.phase ≠ .tx) : s.tx = [] := by
  by_contra htx
  exact hp (hs.tx_iff.mpr htx)

/-- An exchange that ends outside FRAME ends with no payload. -/
theorem endExchange_sequenced {c : ResCode} (htx : s.tx = []) (hpl : s.pl = []) :
    (endExchange c s).Sequenced :=
  sequenced_of_idle rfl htx (by simp [hpl])

theorem startExchange_sequenced (s : State) : (startExchange s).Sequenced :=
  ⟨by simp [frameReq_ne_nil], by simp, by simp, by simp⟩

/-- An extraction over an empty `pl` leaves a payload only with RES = FRAME. -/
theorem applyExtraction_frame_of_pl (r : Extraction) (hpl : s.pl = []) :
    (applyExtraction r s).pl ≠ [] → (applyExtraction r s).res = .frame := by
  by_cases hf : r.out = .frame <;> simp [hf, hpl, ExtractOut.resCode]

theorem extractOnce_sequenced (hs : s.Sequenced) (final : Bool) (hp : s.phase = .idle) :
    (extractOnce final s).Sequenced :=
  sequenced_of_idle hp (hs.tx_eq_nil (by simp [hp])) (applyExtraction_frame_of_pl _ rfl)

/-- In AWAIT an extraction keeps waiting with RES = INCOMPLETE, or ends the exchange. -/
theorem autoExtract_sequenced (hs : s.Sequenced) (hp : s.phase = .await) :
    (autoExtract s).Sequenced := by
  obtain ⟨hpl, -⟩ := hs.noResult (by simp [hp])
  rcases autoExtract_cases s with ⟨ho, h⟩ | ⟨_, h⟩ <;> rw [h]
  · exact { hs with
      frame_of_pl := applyExtraction_frame_of_pl _ hpl
      noResult := fun _ => ⟨by simp [ho, hpl], .inr (by simp [ho, ExtractOut.resCode])⟩ }
  · exact sequenced_of_idle rfl (hs.tx_eq_nil (by simp [hp])) (applyExtraction_frame_of_pl _ hpl)

theorem overflow_sequenced (hs : s.Sequenced) : (overflow s).Sequenced := by
  rcases overflow_cases s with ⟨hp, h⟩ | ⟨_, h⟩ <;> rw [h]
  · obtain ⟨hpl, -⟩ := hs.noResult (by simp [hp])
    exact endExchange_sequenced (hs.tx_eq_nil (by simp [hp])) hpl
  · exact { hs with }

theorem receive_sequenced (hs : s.Sequenced) (d : Byte) : (receive d s).Sequenced := by
  rcases receive_cases d s with ⟨_, h⟩ | ⟨_, hp, h⟩ | ⟨_, _, h⟩ <;> rw [h]
  · exact overflow_sequenced hs
  · exact autoExtract_sequenced (s := storeReceived d s) { hs with } hp
  · exact { hs with }

/-- Taking a byte goes on in TX, or with the last one waits, or ends at end of stream (R180). -/
theorem afterTake_emitFront_sequenced {b : Byte} {rest : List Byte} (hs : s.Sequenced)
    (hb : s.tx = b :: rest) : (afterTake (emitFront b rest s)).Sequenced := by
  have hp : s.phase = .tx := hs.tx_iff.mpr (by simp [hb])
  obtain ⟨hpl, hres⟩ := hs.noResult (by simp [hp])
  rcases afterTake_cases (emitFront b rest s) with ⟨htx, h⟩ | ⟨htx, _, h⟩ | ⟨htx, heos, h⟩ <;> rw [h]
  · exact { hs with tx_iff := by simpa [hp] using htx }
  · exact endExchange_sequenced htx hpl
  · exact ⟨by simpa using htx, by simp [hpl], fun _ => heos, fun _ => ⟨hpl, hres⟩⟩

/-- Every instruction keeps the sequencer's facts. -/
theorem exec_sequenced (hs : s.Sequenced) (h : exec i s = .next t) : t.Sequenced := by
  cases i with
  | nop | crcinit | crcbyte _ | stclr | clrflags => cases h; exact { hs with }
  | stbyte b => cases h; split <;> exact { hs with }
  | send => cases h; exact actOrIll_keeps (fun _ => startExchange_sequenced s) { hs with }
  | decode =>
    cases h
    exact actOrIll_keeps (fun hp => extractOnce_sequenced hs false (isIdle_eq_true.mp hp)) { hs with }
  | decodef =>
    cases h
    exact actOrIll_keeps (fun hp => extractOnce_sequenced hs true (isIdle_eq_true.mp hp)) { hs with }
  | setcfg imm => cases h; exact actOrIll_keeps (fun _ => { hs with }) { hs with }
  | release => cases h; exact sequenced_of_idle rfl rfl (by simp)
  | rxb d => obtain ⟨_, rfl⟩ := execRxb_eq_next h; exact receive_sequenced hs d
  | rxeos =>
    cases h
    split
    · next hp =>
      obtain ⟨hpl, -⟩ := hs.noResult (by simp [hp])
      exact endExchange_sequenced (hs.tx_eq_nil (by simp [hp])) hpl
    · next hp => exact { hs with eos_of_await := fun hp' => absurd hp' hp }
  | ioerr =>
    cases h
    split
    · next hp =>
      obtain ⟨hpl, -⟩ := hs.noResult (by rcases hp with hp | hp <;> simp [hp])
      exact endExchange_sequenced rfl hpl
    · exact hs
  | txtake =>
    obtain ⟨b, rest, hb, rfl⟩ := execTxtake_eq_next h
    exact afterTake_emitFront_sequenced hs hb

/-! ### The step and the run -/

/-- Every step keeps the sizes in bounds. -/
theorem step_bounded (hs : s.Bounded) (h : step s = .next t) : t.Bounded := by
  rcases step_input_cases h with ⟨_, rfl⟩ | ⟨inp, rest, _, ⟨i, _, he⟩ | ⟨_, _, rfl⟩ |
    ⟨a, _, rfl⟩ | ⟨_, rfl⟩⟩
  · exact hs
  · exact exec_bounded (s := { s with pending := rest }) { hs with } he
  · exact { hs with }
  · exact { hs with }
  · exact resetBlock_bounded (s := { s with pending := rest }) { hs with }

/-- Every step keeps the sequencer's facts. -/
theorem step_sequenced (hs : s.Sequenced) (h : step s = .next t) : t.Sequenced := by
  rcases step_input_cases h with ⟨_, rfl⟩ | ⟨inp, rest, _, ⟨i, _, he⟩ | ⟨_, _, rfl⟩ |
    ⟨a, _, rfl⟩ | ⟨_, rfl⟩⟩
  · exact hs
  · exact exec_sequenced (s := { s with pending := rest }) { hs with } he
  · exact { hs with }
  · exact { hs with }
  · exact sequenced_of_idle rfl rfl (by simp)

/-- Every step keeps the invariant. -/
theorem step_keeps_inv (hs : s.Inv) (h : step s = .next t) : t.Inv := by
  obtain ⟨hb, hq⟩ := inv_iff.mp hs
  exact inv_iff.mpr ⟨step_bounded hb h, step_sequenced hq h⟩

/-- What every step keeps, every run keeps. -/
theorem runSteps_keeps {P : State → Prop} (hstep : ∀ s t, P s → step s = .next t → P t) {n : Nat}
    (hs : P s) (h : runSteps n s = .next t) : P t := by
  induction n generalizing s with
  | zero => cases h; exact hs
  | succ n ih =>
    rw [runSteps] at h
    split at h
    · next u hu => exact ih (hstep s u hs hu) h
    · cases h
    · cases h

/-- The state after reset meets the invariant, whatever inputs are to come. -/
theorem powerOn_inv {p : Params} (hp : p.Legal) (inputs : List Input) :
    State.Inv { State.powerOn p with pending := inputs } := by
  have ⟨⟨hrx, _⟩, _⟩ := hp
  have hb : State.Bounded { State.powerOn p with pending := inputs } :=
    { legal := hp
      rx := Nat.zero_le _
      stage := Nat.zero_le _
      tx := Nat.zero_le _
      pl := Nat.le_trans (show 4 ≤ 8 by decide) hrx
      consumed := Nat.zero_le _
      skip := Nat.zero_le _
      cand := by simp [State.powerOn] }
  exact inv_iff.mpr ⟨hb, sequenced_of_idle rfl rfl (by simp [State.powerOn])⟩

end Sys2Proof.Machine

section
open Sys2Proof Sys2Proof.Machine

/-- Settles O15: the invariant holds after reset and along every run, and gives the facts of R40. -/
theorem reachableStatesMeetTheFacts : Obligations.ReachableStatesMeetTheFacts := by
  unfold Obligations.ReachableStatesMeetTheFacts
  intro p inputs n t hp h
  obtain ⟨-, hfacts, -⟩ := runSteps_keeps (P := State.Inv) (fun _ _ => step_keeps_inv)
    (powerOn_inv hp inputs) h
  exact hfacts

end
end

section
/-! SUPPORT. The register bus: what a write and a read do as steps (20_memory.md R54, R55). -/

namespace Sys2Proof.Machine

variable {s t : State} {a : BusAddr} {v : Word} {rest : List Input}

/-! ### Bus writes -/

theorem busWrite_cmd (v : Word) (s : State) : busWrite cmdAddr v s = performCommand v s :=
  if_pos rfl

theorem busWrite_of_ne_cmd (ha : a ≠ cmdAddr) (v : Word) (s : State) :
    busWrite a v s = .next (raiseIll s) :=
  if_neg ha

theorem step_of_write (h : s.pending = .write a v :: rest) :
    step s = busWrite a v { s with pending := rest } :=
  step_of_input h

/-! ### Bus reads -/

theorem step_of_read (h : s.pending = .read a :: rest) :
    step s = .next (answerRead a { s with pending := rest }) :=
  step_of_input h

/-- No address reads the inputs to come or the list of answers: both are the model's own (logs 2, 3). -/
@[simp] theorem busRead_modelFields (s : State) (inputs : List Input) (words : List Word)
    (a : BusAddr) :
    busRead { s with pending := inputs, answers := words } a = busRead s a := rfl

/-- A read at the front of the inputs: the word of its address is answered, and nothing else happens
but that the input is taken. -/
theorem step_read (h : s.pending = .read a :: rest) :
    step s = .next { s with pending := rest, answers := s.answers ++ [busRead s a] } := by
  rw [step_of_read h, answerRead, busRead_modelFields s rest s.answers a]

/-- After a step with a next state, a run goes on from that state. -/
theorem runSteps_succ_of_step (n : Nat) (h : step s = .next t) :
    runSteps (n + 1) s = runSteps n t := by
  simp [runSteps, h]

end Sys2Proof.Machine

section
open Sys2Proof Sys2Proof.Machine

/-- Settles O7: by the two sides of R54, the address being CMD or not. -/
theorem busWritesActOnlyAtCmd : Obligations.BusWritesActOnlyAtCmd := by
  unfold Obligations.BusWritesActOnlyAtCmd
  intro s a v rest h
  rw [step_of_write h]
  constructor
  · intro ha
    exact busWrite_of_ne_cmd ha v _
  · rintro rfl
    exact busWrite_cmd v _

/-- Settles O57: the second read meets a state that differs from the first only in fields that no
address reads. -/
theorem busReadsHaveNoSideEffects : Obligations.BusReadsHaveNoSideEffects := by
  unfold Obligations.BusReadsHaveNoSideEffects
  intro s a rest
  refine ⟨step_read, fun h => ?_⟩
  have hsecond := step_read (a := a) (rest := rest)
    (s := { s with pending := .read a :: rest, answers := s.answers ++ [busRead s a] }) rfl
  rw [runSteps_succ_of_step 1 (step_read h), runSteps_succ_of_step 0 hsecond, runSteps]
  simp

end
end

section
/-! SUPPORT. What a word written to CMD does: an illegal one only sets ILL, any other stands for a
command (30_encoding.md R73, R75). -/

namespace Sys2Proof.Machine

variable {s : State} {w : Word} {i : Instr}

theorem performCommand_of_decode (h : decodeCommand w = some i) (s : State) :
    performCommand w s = exec i s := by
  simp [performCommand, h]

theorem performCommand_of_decode_none (h : decodeCommand w = none) (s : State) :
    performCommand w s = .next (raiseIll s) := by
  simp [performCommand, h]

/-- A command with a phase condition raises ILL outside IDLE, SETCFG whatever its operand (R73, R224). -/
theorem exec_of_isGated_of_ne_idle (hg : i.isGated = true) (hp : s.phase ≠ .idle) :
    exec i s = .next (raiseIll s) := by
  have hidle : isIdle s = false := by simpa [← isIdle_eq_true] using hp
  cases i with
  | send => exact congrArg _ (actOrIll_of_false hidle)
  | decode => exact congrArg _ (actOrIll_of_false hidle)
  | decodef => exact congrArg _ (actOrIll_of_false hidle)
  | setcfg imm => exact congrArg _ (actOrIll_of_false (by simp [hidle]))
  | _ => cases hg

/-- A word that R75 lists raises ILL: it matches no row, or its command breaks the phase condition. -/
theorem performCommand_of_illegal (h : IllegalCommand w.toNat s.phase) :
    performCommand w s = .next (raiseIll s) := by
  rcases (illegalCommand_iff w s.phase).mp h with hnone | ⟨i, hi, hg, hp⟩
  · exact performCommand_of_decode_none hnone s
  · rw [performCommand_of_decode hi, exec_of_isGated_of_ne_idle hg hp]

/-- A word that R75 does not list matches a row. -/
theorem decodeCommand_of_not_illegal {ph : Phase} (h : ¬ IllegalCommand w.toNat ph) :
    ∃ i, decodeCommand w = some i :=
  Option.ne_none_iff_exists'.mp fun hnone => h ((illegalCommand_iff w ph).mpr (.inl hnone))

end Sys2Proof.Machine

section
open Sys2Proof Sys2Proof.Machine

/-- Settles O6: by the two ways R75 makes a word illegal, no matching row or a phase condition broken. -/
theorem illegalCommandWordsOnlySetIll : Obligations.IllegalCommandWordsOnlySetIll := by
  unfold Obligations.IllegalCommandWordsOnlySetIll
  intro s w rest h
  refine ⟨fun hill => ?_, decodeCommand_of_not_illegal⟩
  rw [step_of_write h]
  exact (busWrite_cmd w _).trans (performCommand_of_illegal hill)

/-- Settles O4: each example word is the word of its instruction, so that it decodes to it, and 0x1201
is a SEND with an operand, which R75 lists as illegal. -/
theorem exampleEncodings : Obligations.ExampleEncodings := by
  unfold Obligations.ExampleEncodings
  refine ⟨?stbyte, ?crcbyte, ?setcfg, ?send, ?release, ?rxb, ?txtake, fun s => ?illegal⟩
  case stbyte => exact decodeCommand_encode (i := .stbyte 0x51#8) rfl rfl
  case crcbyte => exact decodeCommand_encode (i := .crcbyte 0xFF#8) rfl rfl
  case setcfg => exact decodeCommand_encode (i := .setcfg 1#8) rfl rfl
  case send => exact decodeCommand_encode (i := .send) rfl rfl
  case release => exact decodeCommand_encode (i := .release) rfl rfl
  case rxb => exact decodeTransport_encode (i := .rxb 0x0D#8) rfl
  case txtake => exact decodeTransport_encode (i := .txtake) rfl
  case illegal =>
    have hsend : (0x1201#16 : Word).toNat / 256 ∈ [0x00, 0x01, 0x10, 0x12, 0x20, 0x21, 0x31, 0x3F] ∧
        (0x1201#16 : Word).toNat % 256 ≠ 0 := by decide
    exact performCommand_of_illegal (.inr (.inl hsend))

end
end

section
/-! SUPPORT. The laws of the CRC: each step is linear and loses nothing, and a word that fits in the low
bits is only shifted (40_crc.md R107, R108). -/

namespace Sys2Proof.Machine

/-! ### One shift -/

/-- What a shift adds when it shifts the bit `b` out. -/
def crcFeedback (b : Bool) : Word := if b then crcPoly else 0#16

theorem crcFeedback_xor : ∀ a b, crcFeedback (a ^^ b) = crcFeedback a ^^^ crcFeedback b := by decide

theorem crcShift_eq_feedback (v : Word) : crcShift v = (v <<< 1) ^^^ crcFeedback (v.getLsbD 15) := by
  unfold crcShift crcFeedback
  split
  · rfl
  · rw [BitVec.xor_zero]

theorem crcShift_of_not_msb {v : Word} (h : v.getLsbD 15 = false) : crcShift v = v <<< 1 :=
  if_neg (Bool.not_eq_true _ ▸ h)

theorem crcShift_xor (v u : Word) : crcShift (v ^^^ u) = crcShift v ^^^ crcShift u := by
  simp only [crcShift_eq_feedback, BitVec.getLsbD_xor, BitVec.shiftLeft_xor_distrib, crcFeedback_xor]
  ac_rfl

/-- The polynomial has constant term 1, so the bit shifted out comes back as bit 0. -/
theorem crcShift_getLsbD_zero (v : Word) : (crcShift v).getLsbD 0 = v.getLsbD 15 := by
  have hpoly : ∀ b, (crcFeedback b).getLsbD 0 = b := by decide
  rw [crcShift_eq_feedback, BitVec.getLsbD_xor, hpoly]
  simp

theorem eq_zero_of_crcShift_eq_zero {v : Word} (h : crcShift v = 0#16) : v = 0#16 := by
  have hmsb : v.getLsbD 15 = false := by rw [← crcShift_getLsbD_zero, h]; rfl
  rw [crcShift_of_not_msb hmsb] at h
  refine BitVec.eq_of_getLsbD_eq fun i hi => ?_
  obtain rfl | hi15 : i = 15 ∨ i + 1 < 16 := by omega
  · exact hmsb
  · simpa [hi15, BitVec.getLsbD_eq_getElem hi] using congrArg (·.getLsbD (i + 1)) h

theorem crcShift_injective : Function.Injective crcShift := fun v u h =>
  BitVec.xor_eq_zero_iff.mp (eq_zero_of_crcShift_eq_zero (by rw [crcShift_xor, h, BitVec.xor_self]))

/-! ### The eight shifts of a step -/

theorem crcShifts_xor (n : Nat) (v u : Word) :
    crcShifts n (v ^^^ u) = crcShifts n v ^^^ crcShifts n u := by
  induction n generalizing v u with
  | zero => rfl
  | succ n ih => simp only [crcShifts, crcShift_xor, ih]

theorem crcShifts_injective (n : Nat) : Function.Injective (crcShifts n) := by
  induction n with
  | zero => exact Function.injective_id
  | succ n ih => exact ih.comp crcShift_injective

/-- While only zeros are shifted out, the polynomial never enters. -/
theorem crcShifts_of_high_bits_clear {n : Nat} {v : Word}
    (h : ∀ i, 16 ≤ i + n → v.getLsbD i = false) : crcShifts n v = v <<< n := by
  induction n generalizing v with
  | zero => simp [crcShifts]
  | succ n ih =>
    have hclear : ∀ i, 16 ≤ i + n → (v <<< 1).getLsbD i = false := fun i hi => by
      simp [h (i - 1) (by omega)]
    rw [crcShifts, crcShift_of_not_msb (h 15 (by omega)), ih hclear, ← BitVec.shiftLeft_add,
      Nat.add_comm]

/-! ### One step -/

theorem crcStep_xor (c c' : Word) (b b' : Byte) :
    crcStep (c ^^^ c') (b ^^^ b') = crcStep c b ^^^ crcStep c' b' := by
  simp only [crcStep, ← crcShifts_xor, BitVec.setWidth_xor, BitVec.shiftLeft_xor_distrib]
  congr 1
  ac_rfl

theorem crcStep_left_inj {c c' : Word} {b : Byte} : crcStep c b = crcStep c' b ↔ c = c' :=
  (crcShifts_injective 8).eq_iff.trans (BitVec.xor_left_inj _)

theorem highByte_shifted (b : Byte) : highByte (b.setWidth 16 <<< 8) = b := by
  ext i hi
  have hword : 8 + i < 16 := by omega
  simp [highByte, hword, BitVec.getLsbD_eq_getElem hi]

theorem crcStep_right_inj {c : Word} {b b' : Byte} : crcStep c b = crcStep c b' ↔ b = b' := by
  rw [crcStep, crcStep, (crcShifts_injective 8).eq_iff, BitVec.xor_right_inj]
  exact (Function.LeftInverse.injective highByte_shifted).eq_iff

/-- Adding a word's own high byte, as a step does, leaves its low byte. -/
theorem xor_highByte_shifted (c : Word) :
    c ^^^ ((highByte c).setWidth 16 <<< 8) = (lowByte c).setWidth 16 := by
  ext i hi
  rcases Nat.lt_or_ge i 8 with hlow | hhigh
  · simp [lowByte, hlow, BitVec.getLsbD_eq_getElem hi]
  · have hbyte : i - 8 < 8 := by omega
    simp [highByte, lowByte, Nat.not_lt.mpr hhigh, hhigh, hbyte, BitVec.getLsbD_eq_getElem hi]

theorem crcShifts_low_byte (b : Byte) : crcShifts 8 (b.setWidth 16) = b.setWidth 16 <<< 8 := by
  refine crcShifts_of_high_bits_clear fun i hi => ?_
  rw [BitVec.getLsbD_setWidth, BitVec.getLsbD_of_ge _ _ (by omega), Bool.and_false]

/-- A step over the accumulator's own high byte moves the low byte up. -/
theorem crcStep_highByte (c : Word) : crcStep c (highByte c) = (lowByte c).setWidth 16 <<< 8 := by
  rw [crcStep, xor_highByte_shifted, crcShifts_low_byte]

/-! ### A whole sequence -/

/-- The accumulator's own two bytes, high byte first, bring it to 0. -/
theorem crcFrom_own_bytes (c : Word) : crcFrom c [highByte c, lowByte c] = 0#16 := by
  rw [crcFrom_cons, crcFrom_cons, crcFrom_nil, crcStep_highByte, crcStep, BitVec.xor_self]
  rfl

theorem crcFrom_xor {d d' : List Byte} (h : d.length = d'.length) (c c' : Word) :
    crcFrom (c ^^^ c') (List.zipWith (· ^^^ ·) d d') = crcFrom c d ^^^ crcFrom c' d' := by
  induction d generalizing d' c c' with
  | nil => rw [List.length_eq_zero_iff.mp h.symm]; rfl
  | cons b d ih =>
    obtain ⟨b', d', rfl⟩ := List.exists_cons_of_length_eq_add_one h.symm
    simp only [List.zipWith_cons_cons, crcFrom_cons, crcStep_xor]
    exact ih (Nat.succ.inj h) _ _

theorem crcFrom_injective (d : List Byte) : Function.Injective (crcFrom · d) := by
  induction d with
  | nil => exact Function.injective_id
  | cons b d ih => exact fun c c' h => crcStep_left_inj.mp (ih h)

/-- Replacing one byte keeps the CRC only when the byte was already there. -/
theorem crcFrom_set_eq_iff {d : List Byte} {j : Nat} (hj : j < d.length) (c : Word) (b : Byte) :
    crcFrom c (d.set j b) = crcFrom c d ↔ b = byteAt d j := by
  induction d generalizing c j with
  | nil => exact absurd hj (Nat.not_lt_zero j)
  | cons x d ih =>
    cases j with
    | zero => exact (crcFrom_injective d).eq_iff.trans crcStep_right_inj
    | succ j => exact ih (Nat.lt_of_succ_lt_succ hj) _

theorem flipped_bit_ne {k : Nat} (hk : k < 8) (x : Byte) : x ^^^ (1#8 <<< k) ≠ x := by
  intro h
  have := congrArg (·.getLsbD k) h
  simp [hk] at this

end Sys2Proof.Machine

section
open Sys2Proof Sys2Proof.Machine

/-- Settles O18: the accumulator after `d` meets its own two bytes. -/
theorem crcResidueIsZero : Obligations.CrcResidueIsZero := by
  unfold Obligations.CrcResidueIsZero
  intro d
  rw [crc16, crcFrom_append]
  exact crcFrom_own_bytes (crc16 d)

/-- Settles O19: a flipped bit is a byte replaced by another one. -/
theorem crcIsLinearAndSeesEveryBit : Obligations.CrcIsLinearAndSeesEveryBit := by
  unfold Obligations.CrcIsLinearAndSeesEveryBit
  constructor
  · intro d d' h
    exact crcFrom_xor h 0#16 0#16
  · intro d j k hj hk h
    exact flipped_bit_ne hk (byteAt d j) ((crcFrom_set_eq_iff hj 0#16 _).mp h)

end
end

section
/-! SUPPORT. The extraction step by step: what each search and each probe leads to
(41_extractor.md R123). -/

namespace Sys2Proof.Machine

variable {b : List Byte} {w : Bool} {p s i : Nat}

/-! ### One probe -/

theorem probe_cons_past_end (h : b.length ≤ p + i) (final : Bool) (rest : List Nat)
    (last : Nat) : probe b final w s p (i :: rest) last = probePastEnd b final s :=
  if_pos h

theorem probe_cons_of_lt (h : p + i < b.length) (final : Bool) (rest : List Nat)
    (last : Nat) :
    probe b final w s p (i :: rest) last =
      if byteAt b (p + i) = stopByte then
        if candidatePasses b w s (p + i) then Extraction.accept b s (p + i) i
        else probe b final w s p rest (p + i)
      else probe b final w s p rest last :=
  if_neg (Nat.not_le.mpr h)

/-! ### The extraction -/

theorem extract_of_no_stop (hp : first b stopByte = none) (final w : Bool) :
    extract b final w = Extraction.incomplete := by
  simp [extract, hp]

theorem extract_of_no_start (hp : first b stopByte = some p)
    (hs : first (b.take p) startByte = none) (final w : Bool) :
    extract b final w = Extraction.framingError p := by
  simp [extract, hp, hs]

theorem extract_of_start (hp : first b stopByte = some p)
    (hs : first (b.take p) startByte = some s) (final w : Bool) :
    extract b final w = probe b final w s p [0, 1, 2] p := by
  simp [extract, hp, hs]

/-- After an item without a stop byte, the first stop byte is the one that ends it. -/
theorem first_append_stop {item : List Byte} {v : Byte} (rest : List Byte) (h : v ∉ item) :
    first (item ++ v :: rest) v = some item.length := by
  rw [first_append_of_notMem _ h, first_cons, if_pos rfl, Option.map_some, Nat.zero_add]

end Sys2Proof.Machine

section
open Sys2Proof Sys2Proof.Machine

/-- Settles O28: by what the two searches answer, the one for the stop byte over the buffer and the
one for the start byte over the item before it. -/
theorem extractWithoutStopOrStart : Obligations.ExtractWithoutStopOrStart := by
  unfold Obligations.ExtractWithoutStopOrStart
  constructor
  · intro b f w hstop
    exact extract_of_no_stop ((first_eq_none_iff b _).mpr hstop) f w
  · intro item rest f w hstop hstart
    refine extract_of_no_start (first_append_stop rest hstop) ?_ f w
    rw [List.take_left]
    exact (first_eq_none_iff item _).mpr hstart

end
end

section
/-! SUPPORT. The resynchronization state machine, one transition and a whole run
(41_extractor.md R133). -/

namespace Sys2Proof.Machine

variable {b : List Byte} {final w : Bool} {i last s p : Nat}

theorem fsmRun_succ (n : Nat) (q : FsmState) :
    fsmRun b final w (n + 1) q = fsmRun b final w n (fsmStep b final w q) := rfl

@[simp] theorem fsmRun_exit (n : Nat) (r : Extraction) :
    fsmRun b final w n (.exit r) = .exit r := by
  induction n with
  | zero => rfl
  | succ n ih => exact ih

theorem fsmStep_next_of_lt (h : i < 2) :
    fsmStep b final w (.next i last s p) = .probing (i + 1) last s p :=
  if_pos h

/-- PROBE's row at a buffered candidate, its tests for room and CRC read as `candidatePasses`. -/
theorem fsmStep_probing_of_lt (h : p + i < b.length) :
    fsmStep b final w (.probing i last s p) =
      if byteAt b (p + i) = stopByte then
        if candidatePasses b w s (p + i) then .exit (Extraction.accept b s (p + i) i)
        else .next i (p + i) s p
      else .next i last s p := by
  by_cases hstop : byteAt b (p + i) = stopByte
  · by_cases hroom : p + i - s < 3
    · simp [fsmStep, Nat.not_le.mpr h, hstop, hroom, candidatePasses, Nat.not_le.mpr hroom]
    · simp [fsmStep, Nat.not_le.mpr h, hstop, hroom, candidatePasses, Nat.not_lt.mp hroom,
        Extraction.accept]
  · simp [fsmStep, Nat.not_le.mpr h, hstop]

theorem fsmStep_probing_past_end (h : b.length ≤ p + i) :
    fsmStep b final w (.probing i last s p) = .exit (probePastEnd b final s) := by
  cases final <;> simp [fsmStep, h, probePastEnd, Extraction.incomplete, Extraction.crcError]

/-- PROBE's row makes the choice that `probe` makes: both answer at this candidate, or both go on to
the candidates after it with the same last stop byte examined. -/
theorem fsmStep_probing_cases (b : List Byte) (final w : Bool) (i last s p : Nat) :
    (∃ r, fsmStep b final w (.probing i last s p) = .exit r ∧
      ∀ is, probe b final w s p (i :: is) last = r) ∨
    (∃ l, fsmStep b final w (.probing i last s p) = .next i l s p ∧
      ∀ is, probe b final w s p (i :: is) last = probe b final w s p is l) := by
  rcases Nat.lt_or_ge (p + i) b.length with hin | hend
  · simp only [fsmStep_probing_of_lt hin, probe_cons_of_lt hin]
    split_ifs
    · exact .inl ⟨_, rfl, fun _ => rfl⟩
    · exact .inr ⟨_, rfl, fun _ => rfl⟩
    · exact .inr ⟨_, rfl, fun _ => rfl⟩
  · exact .inl ⟨_, fsmStep_probing_past_end hend, fun is => probe_cons_past_end hend final is last⟩

/-- With `k` candidates left after `i`, two transitions for each of them and two for `i` reach the
exit. -/
theorem fsmRun_probing {k : Nat} (hk : i + k = 2) :
    fsmRun b final w (2 * k + 2) (.probing i last s p) =
      .exit (probe b final w s p (List.range' i (k + 1)) last) := by
  induction k generalizing i last with
  | zero =>
    obtain rfl : i = 2 := hk
    rcases fsmStep_probing_cases b final w 2 last s p with ⟨r, hstep, hr⟩ | ⟨l, hstep, hl⟩
    · rw [fsmRun_succ, hstep, fsmRun_exit, List.range'_succ, hr]
    · rw [fsmRun_succ, hstep, List.range'_succ, hl]
      rfl
  | succ k ih =>
    rcases fsmStep_probing_cases b final w i last s p with ⟨r, hstep, hr⟩ | ⟨l, hstep, hl⟩
    · rw [fsmRun_succ, hstep, fsmRun_exit, List.range'_succ, hr]
    · rw [fsmRun_succ, hstep, fsmRun_succ, fsmStep_next_of_lt (by omega), List.range'_succ, hl]
      exact ih (by omega)

end Sys2Proof.Machine

section
open Sys2Proof Sys2Proof.Machine

/-- Settles O35: SCAN and SYNC take one transition each, and the three candidates two each. -/
theorem resyncStateMachineIsExtract : Obligations.ResyncStateMachineIsExtract := by
  unfold Obligations.ResyncStateMachineIsExtract
  intro b f w
  cases hp : first b stopByte with
  | none =>
    have hscan : fsmStep b f w .scan = .exit Extraction.incomplete := by
      simp [fsmStep, hp, Extraction.incomplete]
    rw [fsmRun_succ, hscan, fsmRun_exit, extract_of_no_stop hp]
  | some p =>
    have hscan : fsmStep b f w .scan = .sync p := by simp [fsmStep, hp]
    rw [fsmRun_succ, hscan, fsmRun_succ]
    cases hs : first (b.take p) startByte with
    | none =>
      have hsync : fsmStep b f w (.sync p) = .exit (Extraction.framingError p) := by
        simp [fsmStep, hs, Extraction.framingError]
      rw [hsync, fsmRun_exit, extract_of_no_start hp hs]
    | some s =>
      have hsync : fsmStep b f w (.sync p) = .probing 0 p s p := by simp [fsmStep, hs]
      rw [hsync, extract_of_start hp hs]
      exact fsmRun_probing (k := 2) rfl

end
end

section
/-! SUPPORT. What an extraction reads of its buffer: nothing past the last candidate probed
(41_extractor.md R122, R136). -/

namespace Sys2Proof.Machine

variable {a : List Byte} {w : Bool} {p q s : Nat}

/-! ### Reads inside the front of a buffer -/

theorem byteAt_append_left (e : List Byte) (h : q < a.length) : byteAt (a ++ e) q = byteAt a q :=
  List.getD_append a e 0#8 q h

theorem slice_append_left (e : List Byte) (i : Nat) (h : q < a.length) :
    slice (a ++ e) i q = slice a i q := by
  rw [slice, slice, List.take_append_of_le_length h]

theorem candidatePasses_append_left (e : List Byte) (h : q < a.length) :
    candidatePasses (a ++ e) w s q = candidatePasses a w s q := by
  rw [candidatePasses, candidatePasses, candidateWindow, candidateWindow,
    slice_append_left e _ (by omega), byteAt_append_left e (by omega),
    byteAt_append_left e (by omega)]

theorem accept_append_left (e : List Byte) (i : Nat) (h : q < a.length) :
    Extraction.accept (a ++ e) s q i = Extraction.accept a s q i := by
  rw [Extraction.accept, Extraction.accept, slice_append_left e _ (by omega)]

/-! ### The probes and the extraction -/

/-- Probes that answer something other than INCOMPLETE never ran past the end, so what follows the
buffer does not matter to them. -/
theorem probe_append {is : List Nat} {last : Nat} (e : List Byte)
    (h : (probe a false w s p is last).out ≠ .incomplete) :
    probe (a ++ e) false w s p is last = probe a false w s p is last := by
  induction is generalizing last with
  | nil => rfl
  | cons i rest ih =>
    have hin : p + i < a.length := by
      by_contra hend
      simp [probe_cons_past_end (Nat.not_lt.mp hend), probePastEnd, Extraction.incomplete] at h
    have hin' : p + i < (a ++ e).length := by
      rw [List.length_append]
      omega
    rw [probe_cons_of_lt hin] at h
    rw [probe_cons_of_lt hin', probe_cons_of_lt hin, byteAt_append_left e hin,
      candidatePasses_append_left e hin, accept_append_left e i hin]
    split_ifs with hstop hpass
    · rfl
    · exact ih (by simpa [hstop, hpass] using h)
    · exact ih (by simpa [hstop] using h)

/-- The item before the first stop byte stays the same when bytes are appended. -/
theorem take_append_of_first {v : Byte} (e : List Byte) (hp : first a v = some p) :
    (a ++ e).take p = a.take p :=
  List.take_append_of_le_length (first_some hp).1.le

/-- An outcome other than INCOMPLETE stays the same tuple when bytes are appended (R136). -/
theorem extract_append (e : List Byte) (h : (extract a false w).out ≠ .incomplete) :
    extract (a ++ e) false w = extract a false w := by
  cases hp : first a stopByte with
  | none => simp [extract_of_no_stop hp, Extraction.incomplete] at h
  | some p =>
    have hp' := first_append_some e hp
    have htake := take_append_of_first e hp
    cases hs : first (a.take p) startByte with
    | none => rw [extract_of_no_start hp hs, extract_of_no_start hp' (htake ▸ hs)]
    | some s =>
      rw [extract_of_start hp hs] at h ⊢
      rw [extract_of_start hp' (htake ▸ hs), probe_append e h]

/-- With the three candidate positions buffered, no probe runs past the end (R122). -/
theorem probe_out_ne_incomplete (final : Bool) (last : Nat) (h : p + 3 ≤ a.length) :
    (probe a final w s p [0, 1, 2] last).out ≠ .incomplete := by
  have hin : ¬ ∃ i ∈ [0, 1, 2], a.length ≤ p + i := by
    simp only [List.mem_cons, List.not_mem_nil, or_false, not_exists, not_and]
    omega
  rcases probe_cases a final w s p [0, 1, 2] last with ⟨_, hout, _⟩ | ⟨_, hout, _⟩ |
    ⟨_, _, _, _, _, h⟩ | ⟨_, _, h⟩
  · exact absurd hout hin
  · exact absurd hout hin
  · simp [h, Extraction.accept]
  · simp [h, Extraction.crcError]

theorem extract_out_ne_incomplete (final : Bool) (hp : first a stopByte = some p)
    (h : p + 3 ≤ a.length) : (extract a final w).out ≠ .incomplete := by
  cases hs : first (a.take p) startByte with
  | none => simp [extract_of_no_start hp hs, Extraction.framingError]
  | some s => rw [extract_of_start hp hs]; exact probe_out_ne_incomplete final p h

/-- The first value is found in any front of the buffer that reaches it. -/
theorem first_take_of_lt {v : Byte} {n : Nat} (hp : first a v = some p) (h : p < n) :
    first (a.take n) v = some p := by
  have hlen := (first_some hp).1
  rw [← List.take_append_drop n a] at hp
  cases hfront : first (a.take n) v with
  | none =>
    rw [first_append_of_notMem _ ((first_eq_none_iff _ v).mp hfront)] at hp
    obtain ⟨j, -, rfl⟩ := Option.map_eq_some_iff.mp hp
    rw [List.length_take] at h hlen
    omega
  | some j =>
    rw [first_append_some _ hfront] at hp
    exact hp

/-- Only the bytes through `p + 2` are read, `p` being the first stop byte (R136). -/
theorem extract_take (hp : first a stopByte = some p) :
    extract (a.take (p + 3)) false w = extract a false w := by
  rcases Nat.le_total a.length (p + 3) with hlen | hlen
  · rw [List.take_of_length_le hlen]
  · have hfront : (extract (a.take (p + 3)) false w).out ≠ .incomplete :=
      extract_out_ne_incomplete false (first_take_of_lt hp (by omega))
        (by rw [List.length_take]; omega)
    rw [← extract_append (a.drop (p + 3)) hfront, List.take_append_drop]

end Sys2Proof.Machine

section
open Sys2Proof Sys2Proof.Machine

/-- Settles O34: a probe past the end is INCOMPLETE, so any other outcome read only buffered bytes,
and the three candidates end at `p + 2`. -/
theorem extractIsStableUnderAppend : Obligations.ExtractIsStableUnderAppend := by
  unfold Obligations.ExtractIsStableUnderAppend
  intro b e w h
  refine ⟨extract_append e h, ?_⟩
  cases hp : first b stopByte with
  | none => simp [extract_of_no_stop hp, Extraction.incomplete] at h
  | some p => exact ⟨p, hp, extract_take hp⟩

end
end

section
/-! SUPPORT. The request frame read by position, and SEND in IDLE (42_encoder.md R151, R153, R155). -/

namespace Sys2Proof.Machine

variable {s : State}

/-! ### The stored CRC -/

/-- A word stored most significant byte first reads back (R56). -/
theorem bigEndian_highByte_lowByte (c : Word) : bigEndian (highByte c) (lowByte c) = c := by
  ext i hi
  rcases Nat.lt_or_ge i 8 with hlow | hhigh
  · simp [bigEndian, lowByte, hlow, BitVec.getLsbD_eq_getElem hi]
  · have hbyte : i - 8 < 8 := by omega
    simp [bigEndian, highByte, lowByte, Nat.not_lt.mpr hhigh, hhigh, hbyte,
      BitVec.getLsbD_eq_getElem hi]

/-! ### The frame by position -/

theorem byteAt_append_right (d e : List Byte) (i : Nat) :
    byteAt (d ++ e) (d.length + i) = byteAt e i := by
  rw [byteAt, List.getD_append_right _ _ _ _ (Nat.le_add_right _ _), Nat.add_sub_cancel_left, byteAt]

theorem frameReq_take_stage (d : List Byte) : (frameReq d).take d.length = d :=
  List.take_left

theorem frameReq_take_stage_crc (d : List Byte) :
    (frameReq d).take (d.length + 2) = d ++ [highByte (crc16 d), lowByte (crc16 d)] :=
  List.take_length_add_append 2

theorem frameReq_byteAt_highByte (d : List Byte) :
    byteAt (frameReq d) d.length = highByte (crc16 d) :=
  byteAt_append_right d _ 0

theorem frameReq_byteAt_lowByte (d : List Byte) :
    byteAt (frameReq d) (d.length + 1) = lowByte (crc16 d) :=
  byteAt_append_right d _ 1

theorem frameReq_byteAt_stop (d : List Byte) : byteAt (frameReq d) (d.length + 2) = stopByte :=
  byteAt_append_right d _ 2

/-! ### SEND -/

theorem exec_send_of_idle (hp : s.phase = .idle) : exec .send s = .next (startExchange s) :=
  congrArg _ (actOrIll_of_true (isIdle_eq_true.mpr hp))

end Sys2Proof.Machine

section
open Sys2Proof Sys2Proof.Machine

/-- Settles O25: SEND leaves `frameReq` of `stage` in `tx`; its last three bytes are the stored CRC and
the stop byte, and the residue law gives the CRC through the stored one. -/
theorem sentRequestsCarryTheirCrc : Obligations.SentRequestsCarryTheirCrc := by
  unfold Obligations.SentRequestsCarryTheirCrc
  intro s hp
  refine ⟨startExchange s, exec_send_of_idle hp, ?_⟩
  rw [startExchange_tx, frameReq_length]
  refine ⟨Nat.le_add_left _ _, ?stored, frameReq_byteAt_stop s.stage, ?residue⟩
  case stored =>
    change crc16 ((frameReq s.stage).take s.stage.length) =
      bigEndian (byteAt (frameReq s.stage) s.stage.length)
        (byteAt (frameReq s.stage) (s.stage.length + 1))
    rw [frameReq_take_stage, frameReq_byteAt_highByte, frameReq_byteAt_lowByte,
      bigEndian_highByte_lowByte]
  case residue =>
    change crc16 ((frameReq s.stage).take (s.stage.length + 2)) = 0x0000#16
    rw [frameReq_take_stage_crc]
    exact crcResidueIsZero s.stage

end
end

section
/-! SUPPORT. The transition table of the sequencer (43_accumulator.md R190), and the row each input
takes. -/

namespace Sys2Proof.Machine

variable {s t : State} {i : Instr}

/-- The rows of R190's table: the input, what it asks of the state before, and what it leaves. -/
inductive TableRow (s t : State) : Input → Prop
  | sendInIdle (from_idle : s.phase = .idle) (to_tx : t.phase = .tx)
      (res : t.res = .none) : TableRow s t Instr.send.toInput
  | lastTxtake (from_tx : s.phase = .tx) (tx : t.tx = []) (eos : s.eos = false)
      (to_await : t.phase = .await) (res : t.res = s.res) : TableRow s t Instr.txtake.toInput
  | lastTxtakeAfterEos (from_tx : s.phase = .tx) (tx : t.tx = []) (eos : s.eos = true)
      (to_idle : t.phase = .idle) (res : t.res = .errEof) : TableRow s t Instr.txtake.toInput
  | ioerrInTx (from_tx : s.phase = .tx) (to_idle : t.phase = .idle)
      (res : t.res = .errIo) : TableRow s t Instr.ioerr.toInput
  | rxbCompletes (d : Byte) (from_await : s.phase = .await)
      (room : s.rx.length ≠ s.params.rxCap)
      (out : (extract (s.rx ++ [d]) false s.win).out ≠ .incomplete) (to_idle : t.phase = .idle)
      (res : t.res = (extract (s.rx ++ [d]) false s.win).out.resCode) :
      TableRow s t (Instr.rxb d).toInput
  | rxbOverflows (d : Byte) (from_await : s.phase = .await)
      (full : s.rx.length = s.params.rxCap) (to_idle : t.phase = .idle) (res : t.res = .errOvf) :
      TableRow s t (Instr.rxb d).toInput
  | rxeosInAwait (from_await : s.phase = .await) (to_idle : t.phase = .idle)
      (res : t.res = .errEof) : TableRow s t Instr.rxeos.toInput
  | ioerrInAwait (from_await : s.phase = .await) (to_idle : t.phase = .idle)
      (res : t.res = .errIo) : TableRow s t Instr.ioerr.toInput
  | release (to_idle : t.phase = .idle) (res : t.res = .none) :
      TableRow s t Instr.release.toInput
  | reset (to_idle : t.phase = .idle) (res : t.res = .none) :
      TableRow s t .reset

/-! ### The phase after the shared operations -/

@[simp] theorem extractOnce_phase (final : Bool) (s : State) :
    (extractOnce final s).phase = s.phase := rfl

/-- A gated command whose action keeps the phase keeps it also when it raises ILL. -/
theorem actOrIll_phase_of_keeps {c : Bool} {f : State → State} (hf : (f s).phase = s.phase) :
    (actOrIll c f s).phase = s.phase :=
  actOrIll_keeps (P := fun t => t.phase = s.phase) (fun _ => hf) rfl

/-! ### The row of each event -/

/-- RXB changes the phase only in AWAIT, by an overflow or by an extraction that gives a result. -/
theorem receive_tableRow {d : Byte} (hne : (receive d s).phase ≠ s.phase) :
    TableRow s (receive d s) (Instr.rxb d).toInput := by
  rcases receive_cases d s with ⟨hfull, h⟩ | ⟨hroom, hp, h⟩ | ⟨_, _, h⟩ <;> rw [h] at hne ⊢
  · rcases overflow_cases s with ⟨hp, ho⟩ | ⟨_, ho⟩ <;> rw [ho] at hne ⊢
    · exact .rxbOverflows d hp hfull rfl rfl
    · exact absurd rfl hne
  · rcases autoExtract_cases (storeReceived d s) with ⟨_, ha⟩ | ⟨hout, ha⟩ <;> rw [ha] at hne ⊢
    · exact absurd rfl hne
    · exact .rxbCompletes d hp hroom hout rfl rfl
  · exact absurd rfl hne

/-- TXTAKE changes the phase only in TX and with the last byte, which EOS turns into an end. -/
theorem afterTake_emitFront_tableRow {b : Byte} {rest : List Byte} (hp : s.phase = .tx)
    (hne : (afterTake (emitFront b rest s)).phase ≠ s.phase) :
    TableRow s (afterTake (emitFront b rest s)) Instr.txtake.toInput := by
  rcases afterTake_cases (emitFront b rest s) with ⟨_, h⟩ | ⟨htx, heos, h⟩ | ⟨htx, heos, h⟩ <;>
    rw [h] at hne ⊢
  · exact absurd rfl hne
  · exact .lastTxtakeAfterEos hp htx heos rfl rfl
  · exact .lastTxtake hp htx heos rfl rfl

theorem rxeos_tableRow (h : exec .rxeos s = .next t) (hne : t.phase ≠ s.phase) :
    TableRow s t Instr.rxeos.toInput := by
  have hcases : (s.phase = .await ∧ t = endExchange .errEof (markEndOfStream s)) ∨
      (s.phase ≠ .await ∧ t = markEndOfStream s) := by simpa using exec_cases h
  rcases hcases with ⟨hp, rfl⟩ | ⟨_, rfl⟩
  · exact .rxeosInAwait hp rfl rfl
  · exact absurd rfl hne

theorem ioerr_tableRow (h : exec .ioerr s = .next t) (hne : t.phase ≠ s.phase) :
    TableRow s t Instr.ioerr.toInput := by
  have hcases : (s.phase ≠ .idle ∧ t = abandonExchange s) ∨ (s.phase = .idle ∧ t = s) := by
    simpa using exec_cases h
  rcases hcases with ⟨hidle, rfl⟩ | ⟨_, rfl⟩
  · cases hp : s.phase with
    | idle => exact absurd hp hidle
    | tx => exact .ioerrInTx hp rfl rfl
    | await => exact .ioerrInAwait hp rfl rfl
  · exact absurd rfl hne

/-! ### The row of a step -/

/-- An instruction that changes the phase takes a row of the table. That TXTAKE acts only in TX is the
sequencer's invariant: elsewhere `tx` is empty. -/
theorem exec_tableRow (hs : s.Sequenced) (h : exec i s = .next t) (hne : t.phase ≠ s.phase) :
    TableRow s t i.toInput := by
  cases i with
  | nop | crcinit | crcbyte _ | stclr | clrflags => cases h; exact absurd rfl hne
  | stbyte b => cases h; exact absurd (by split <;> rfl) hne
  | send =>
    cases h
    rcases actOrIll_cases (isIdle s) startExchange s with ⟨hp, ha⟩ | ⟨_, ha⟩ <;> rw [ha] at hne ⊢
    · exact .sendInIdle (isIdle_eq_true.mp hp) rfl rfl
    · exact absurd rfl hne
  | decode | decodef => cases h; exact absurd (actOrIll_phase_of_keeps (extractOnce_phase _ s)) hne
  | setcfg imm => cases h; exact absurd (actOrIll_phase_of_keeps (setWindow_phase s _)) hne
  | release => cases h; exact .release rfl rfl
  | rxb d => obtain ⟨_, rfl⟩ := execRxb_eq_next h; exact receive_tableRow hne
  | rxeos => exact rxeos_tableRow h hne
  | ioerr => exact ioerr_tableRow h hne
  | txtake =>
    obtain ⟨b, rest, hb, rfl⟩ := execTxtake_eq_next h
    exact afterTake_emitFront_tableRow (hs.tx_iff.mpr (by simp [hb])) hne

/-- A step that changes the phase takes a row of the table, its input taken off the list. -/
theorem step_tableRow (hs : s.Sequenced) (h : step s = .next t) (hne : t.phase ≠ s.phase) :
    ∃ inp rest, s.pending = inp :: rest ∧ TableRow { s with pending := rest } t inp := by
  rcases step_input_cases h with ⟨_, rfl⟩ | ⟨inp, rest, hp, ⟨i, hi, he⟩ | ⟨_, _, rfl⟩ |
    ⟨a, _, rfl⟩ | ⟨rfl, rfl⟩⟩
  · exact absurd rfl hne
  · obtain ⟨_, rfl⟩ := toInput_of_instr hi
    exact ⟨_, rest, hp, exec_tableRow { hs with } he hne⟩
  · exact absurd rfl hne
  · exact absurd rfl hne
  · exact ⟨_, rest, hp, .reset rfl rfl⟩

end Sys2Proof.Machine

section
open Sys2Proof Sys2Proof.Machine

/-- Settles O45: a step that changes the phase takes a row of `TableRow`, and each row is one of the
statement's ten. -/
theorem phaseChangesOnlyByTheTable : Obligations.PhaseChangesOnlyByTheTable := by
  unfold Obligations.PhaseChangesOnlyByTheTable
  intro s t hinv h hne
  obtain ⟨inp, rest, hp, hrow⟩ := step_tableRow (inv_iff.mp hinv).2 h hne
  refine ⟨inp, rest, hp, ?_⟩
  cases hrow with
  | sendInIdle hfrom hto hres => exact .inl ⟨hfrom, rfl, hto, hres⟩
  | lastTxtake hfrom htx heos hto hres => exact .inr (.inl ⟨hfrom, rfl, htx, heos, hto, hres⟩)
  | lastTxtakeAfterEos hfrom htx heos hto hres =>
    iterate 2 right
    exact .inl ⟨hfrom, rfl, htx, heos, hto, hres⟩
  | ioerrInTx hfrom hto hres =>
    iterate 3 right
    exact .inl ⟨hfrom, rfl, hto, hres⟩
  | rxbCompletes d hfrom hroom hout hto hres =>
    iterate 4 right
    exact .inl ⟨hfrom, hto, d, rfl, hroom, hout, hres⟩
  | rxbOverflows d hfrom hfull hto hres =>
    iterate 5 right
    exact .inl ⟨hfrom, hto, ⟨d, rfl⟩, hfull, hres⟩
  | rxeosInAwait hfrom hto hres =>
    iterate 6 right
    exact .inl ⟨hfrom, rfl, hto, hres⟩
  | ioerrInAwait hfrom hto hres =>
    iterate 7 right
    exact .inl ⟨hfrom, rfl, hto, hres⟩
  | release hto hres =>
    iterate 8 right
    exact .inl ⟨rfl, hto, hres⟩
  | reset hto hres =>
    iterate 9 right
    exact ⟨rfl, hto, hres⟩

end
end

section
/-! SUPPORT. The reset event and the clean entry (70_reset_and_hazards.md R250, R253), and the registers
read by number (20_memory.md R52). -/

namespace Sys2Proof.Machine

variable {s : State} {a : BusAddr} {i : Instr} {rest : List Input}

/-! ### The next input as a step -/

theorem step_of_reset (h : s.pending = .reset :: rest) :
    step s = .next (resetBlock { s with pending := rest }) :=
  step_of_input h

/-- The word of an instruction, given on the port that carries it, performs that instruction. -/
theorem step_of_toInput (hwf : i.wellFormed = true) (h : s.pending = i.toInput :: rest) :
    step s = exec i { s with pending := rest } := by
  rw [step_of_input h, deliver_of_instr (instr_toInput hwf)]

theorem step_of_clrflags (h : s.pending = cmdIn 0x3100#16 :: rest) :
    step s = .next (clearStickyFlags { s with pending := rest }) :=
  step_of_toInput (i := .clrflags) rfl h

theorem step_of_release (h : s.pending = cmdIn 0x3F00#16 :: rest) :
    step s = .next (forfeit { s with pending := rest }) :=
  step_of_toInput (i := .release) rfl h

/-! ### The registers -/

/-- Page 0 of the bus is the register map, the address being the register's number (R52). -/
theorem busRead_of_page_zero (s : State) (h : a.toNat < 0x10000) :
    busRead s a = readRegister s a.toNat := by
  have hpage : (a.extractLsb' 16 4).toNat = 0 := by
    simp [Nat.shiftRight_eq_div_pow, Nat.div_eq_of_lt h]
  have hnumber : (a.extractLsb' 0 16).toNat = a.toNat := by
    simpa using Nat.mod_eq_of_lt h
  simp [busRead, hpage, hnumber]

/-- CFG is WIN in bit 0 (R38). -/
theorem cfgWord_eq (s : State) : cfgWord s = if s.win then 0x0001#16 else 0x0000#16 := by
  rw [cfgWord]
  cases s.win <;> rfl

/-- STATUS reads 0 after reset: NONE, IDLE and candidate 0 are the codes 0, and no flag is set (R250). -/
theorem statusWord_resetBlock (s : State) : statusWord (resetBlock s) = 0x0000#16 := by
  simp [statusWord, ResCode.code, Phase.code, flagWord]

/-- After reset the registers from CRC to SKIP read 0: a CRC, four lengths and two counters. -/
theorem readRegister_resetBlock (s : State) {n : Nat} (hlow : 3 ≤ n) (hhigh : n ≤ 9) :
    readRegister (resetBlock s) n = 0x0000#16 := by
  interval_cases n <;> rfl

/-! ### The clean entry -/

theorem resetBlock_clean (s : State) : (resetBlock s).Clean :=
  ⟨rfl, rfl, rfl, rfl, rfl, rfl, rfl, rfl, rfl⟩

/-- RELEASE leaves only the sticky flags to be clear beforehand. -/
theorem forfeit_clean_iff : (forfeit s).Clean ↔ s.ovf = false ∧ s.sovf = false ∧ s.ill = false := by
  simp [State.Clean]

/-- CLRFLAGS clears exactly the flags that RELEASE keeps. -/
theorem forfeit_clearStickyFlags_clean (s : State) : (forfeit (clearStickyFlags s)).Clean :=
  forfeit_clean_iff.mpr ⟨rfl, rfl, rfl⟩

/-- CLRFLAGS and then RELEASE, as a run of two steps. -/
theorem runSteps_clrflags_release (h : s.pending = cmdIn 0x3100#16 :: cmdIn 0x3F00#16 :: rest) :
    runSteps 2 s = .next (forfeit (clearStickyFlags { s with pending := rest })) := by
  have hsecond := step_of_release (rest := rest)
    (s := clearStickyFlags { s with pending := cmdIn 0x3F00#16 :: rest }) rfl
  rw [runSteps_succ_of_step 1 (step_of_clrflags h), runSteps_succ_of_step 0 hsecond]
  rfl

end Sys2Proof.Machine

section
open Sys2Proof Sys2Proof.Machine

/-- Settles O11: the step is `resetBlock`; its elements are R22's, STATUS and CFG are built of them, and
the other registers are read by number. -/
theorem resetEventSetsEveryElement : Obligations.ResetEventSetsEveryElement := by
  unfold Obligations.ResetEventSetsEveryElement
  intro s rest h
  refine ⟨_, step_of_reset h, rfl, rfl, rfl, rfl, rfl, rfl, rfl, rfl, rfl, rfl, rfl, rfl, rfl, rfl,
    rfl, ?status, ?cfg, fun a hlow hhigh => ?registers⟩
  case status => exact (busRead_of_page_zero _ (by decide)).trans (statusWord_resetBlock _)
  case cfg => exact (busRead_of_page_zero _ (by decide)).trans (cfgWord_eq _)
  case registers =>
    rw [busRead_of_page_zero _ (by omega), readRegister_resetBlock _ hlow hhigh]

/-- Settles O56: CLRFLAGS clears the flags that RELEASE keeps, RELEASE the rest of the clean entry;
neither writes `stage`, `crc` or `win`. -/
theorem cleanEntryIsReachedFromAnyState : Obligations.CleanEntryIsReachedFromAnyState := by
  unfold Obligations.CleanEntryIsReachedFromAnyState
  intro s rest
  constructor
  · intro h
    exact ⟨_, runSteps_clrflags_release h, forfeit_clearStickyFlags_clean _, rfl, rfl, rfl⟩
  · intro h
    exact ⟨_, step_of_reset h, resetBlock_clean _⟩

end
end

section
/-! SUPPORT. The two opcode maps together: the port that bit 15 of a word names, and rows that
share no word (30_encoding.md R71 to R74). -/

namespace Sys2Proof

/-- Bit 15 of an instruction's word names its port (R71, R74). -/
theorem encode_getLsbD_15 (i : Instr) : (encode i).getLsbD 15 = i.isTransport := by
  cases i with
  | crcbyte b => exact Laws.EncodingPort.crcbyte b
  | stbyte b => exact Laws.EncodingPort.stbyte b
  | setcfg imm => exact Laws.EncodingPort.setcfg imm
  | rxb d => exact Laws.EncodingPort.rxb d
  | _ => rfl

theorem decodeWord_encode {i : Instr} (hwf : i.wellFormed = true) :
    decodeWord (encode i) = some i := by
  rw [decodeWord, encode_getLsbD_15]
  cases ht : i.isTransport with
  | true => exact decodeTransport_encode ht
  | false => exact decodeCommand_encode ht hwf

/-- Two rows with a common word agree where both masks look. -/
theorem OpcodeRow.patterns_agree_of_common {r r' : OpcodeRow} {w : Word}
    (h : w &&& r.mask = r.pattern) (h' : w &&& r'.mask = r'.pattern) :
    r.pattern &&& r'.mask = r'.pattern &&& r.mask := by
  rw [← h, ← h', BitVec.and_assoc, BitVec.and_assoc, BitVec.and_comm r.mask]

end Sys2Proof

section
open Sys2Proof Sys2Proof.Machine

/-- Settles O1: the port of the word is the port of the instruction, whose map takes the word back.
-/
theorem decodeAfterEncode : Obligations.DecodeAfterEncode := by
  unfold Obligations.DecodeAfterEncode
  exact fun _ => decodeWord_encode

/-- Settles O2: by the map that bit 15 chooses. -/
theorem encodeAfterDecode : Obligations.EncodeAfterDecode := by
  unfold Obligations.EncodeAfterDecode
  intro w i h
  rw [decodeWord] at h
  split at h
  · exact (encode_of_decodeTransport h).2
  · exact (encode_of_decodeCommand h).2

/-- Settles O3: any two rows disagree on a bit that both masks look at. -/
theorem opcodeRowsDoNotOverlap : Obligations.OpcodeRowsDoNotOverlap := by
  unfold Obligations.OpcodeRowsDoNotOverlap
  have hdisagree : (commandRows ++ transportRows).Pairwise fun r r' =>
      r.pattern &&& r'.mask ≠ r'.pattern &&& r.mask := by decide
  exact hdisagree.imp fun hne w h h' => hne (OpcodeRow.patterns_agree_of_common h h')

/-- Settles O5: a word is the word of what it decodes to, and its bit 15 names that instruction's
port. -/
theorem portsShareNoInstruction : Obligations.PortsShareNoInstruction := by
  unfold Obligations.PortsShareNoInstruction
  intro w i
  constructor
  · intro h
    obtain ⟨ht, -, rfl⟩ := encode_of_decodeCommand h
    exact ⟨ht, (encode_getLsbD_15 i).trans ht⟩
  · intro h
    obtain ⟨ht, -, rfl⟩ := encode_of_decodeTransport h
    exact ⟨ht, (encode_getLsbD_15 i).trans ht⟩

/-- Settles O14: the invariant in its two parts, each kept by every step. -/
theorem stepKeepsTheInvariant : Obligations.StepKeepsTheInvariant := by
  unfold Obligations.StepKeepsTheInvariant
  exact fun _ _ => step_keeps_inv

end
end

section
/-! SUPPORT. What each instruction answers, case by case (40_crc.md, 42_encoder.md, 41_extractor.md,
43_accumulator.md, 44_control.md). -/

namespace Sys2Proof.Machine

variable {s : State}

/-! ### The staging buffer -/

theorem exec_stbyte_of_room (b : Byte) (h : s.stage.length ≠ s.params.stageCap) :
    exec (.stbyte b) s = .next (storeStaged b s) :=
  congrArg _ (if_neg h)

theorem exec_stbyte_of_full (b : Byte) (h : s.stage.length = s.params.stageCap) :
    exec (.stbyte b) s = .next (markStageOverflow s) :=
  congrArg _ (if_pos h)

/-! ### The extraction commands and SETCFG -/

/-- An outcome without a frame has an empty payload, so what `pl` held before does not show. -/
theorem extractOnce_pl (final : Bool) (s : State) :
    (extractOnce final s).pl = (extract s.rx final s.win).pay := by
  obtain ⟨-, -, -, -, hpay, -⟩ := extract_bounds s.rx final s.win
  by_cases hf : (extract s.rx final s.win).out = .frame
  · simp [extractOnce, hf]
  · simp [extractOnce, hf, hpay hf]

/-- An extraction by command writes the extraction's tuple (R132, R140, R141). -/
theorem extractOnce_eq (final : Bool) (s : State) :
    extractOnce final s =
      { s with
        res := (extract s.rx final s.win).out.resCode
        consumed := BitVec.ofNat 16 (extract s.rx final s.win).n
        skip := BitVec.ofNat 16 (extract s.rx final s.win).k
        cand := BitVec.ofNat 2 (extract s.rx final s.win).i
        rx := s.rx.drop (extract s.rx final s.win).n
        pl := (extract s.rx final s.win).pay } := by
  rw [← extractOnce_pl]
  rfl

theorem exec_decode_of_idle (hp : s.phase = .idle) :
    exec .decode s = .next (extractOnce false s) :=
  congrArg _ (actOrIll_of_true (isIdle_eq_true.mpr hp))

theorem exec_decodef_of_idle (hp : s.phase = .idle) :
    exec .decodef s = .next (extractOnce true s) :=
  congrArg _ (actOrIll_of_true (isIdle_eq_true.mpr hp))

theorem exec_setcfg_of_idle {imm : Byte} (hp : s.phase = .idle) (himm : imm.toNat < 2) :
    exec (.setcfg imm) s = .next (setWindow (setcfgWin imm) s) :=
  congrArg _ (actOrIll_of_true (by simp [hp, (setcfgReservedZero_iff imm).mpr himm]))

theorem exec_setcfg_of_reserved {imm : Byte} (himm : 2 ≤ imm.toNat) :
    exec (.setcfg imm) s = .next (raiseIll s) := by
  have hz : setcfgReservedZero imm = false := by
    rw [← Bool.not_eq_true, setcfgReservedZero_iff]
    omega
  exact congrArg _ (actOrIll_of_false (by simp [hz]))

/-! ### The received byte -/

theorem exec_rxb_of_eos (d : Byte) (he : s.eos = true) : exec (.rxb d) s = .fault .rxbAfterEos :=
  if_pos he

theorem exec_rxb (d : Byte) (he : s.eos = false) : exec (.rxb d) s = .next (receive d s) :=
  if_neg (by simp [he])

theorem receive_of_full (d : Byte) (h : s.rx.length = s.params.rxCap) : receive d s = overflow s :=
  if_pos h

theorem receive_of_room (d : Byte) (h : s.rx.length ≠ s.params.rxCap) (hp : s.phase ≠ .await) :
    receive d s = storeReceived d s :=
  (if_neg h).trans (if_neg hp)

theorem receive_of_room_in_await (d : Byte) (h : s.rx.length ≠ s.params.rxCap)
    (hp : s.phase = .await) : receive d s = autoExtract (storeReceived d s) :=
  (if_neg h).trans (if_pos hp)

theorem overflow_eq (s : State) :
    overflow s =
      { s with
        consumed := lengthWord s.rx, skip := 0#16, cand := 0#2, rx := [], ovf := true
        res := if s.phase = .await then .errOvf else s.res
        phase := if s.phase = .await then .idle else s.phase } := by
  rcases overflow_cases s with ⟨hp, h⟩ | ⟨hp, h⟩
  · rw [h, if_pos hp, if_pos hp]; rfl
  · rw [h, if_neg hp, if_neg hp]; rfl

/-- The automatic extraction writes the extraction's tuple, `pl` on FRAME only (R174, R176). -/
theorem autoExtract_eq (hp : s.phase = .await) :
    autoExtract s =
      { s with
        res := (extract s.rx false s.win).out.resCode
        consumed := BitVec.ofNat 16 (extract s.rx false s.win).n
        skip := BitVec.ofNat 16 (extract s.rx false s.win).k
        cand := BitVec.ofNat 2 (extract s.rx false s.win).i
        rx := s.rx.drop (extract s.rx false s.win).n
        pl := if (extract s.rx false s.win).out = .frame then (extract s.rx false s.win).pay
          else s.pl
        phase := if (extract s.rx false s.win).out = .incomplete then .await else .idle } := by
  rcases autoExtract_cases s with ⟨ho, h⟩ | ⟨ho, h⟩
  · rw [h, if_pos ho, ← hp]; rfl
  · rw [h, if_neg ho]; rfl

/-! ### The other transport events -/

theorem exec_rxeos_of_await (hp : s.phase = .await) :
    exec .rxeos s = .next (endExchange .errEof (markEndOfStream s)) :=
  congrArg _ (if_pos hp)

theorem exec_rxeos_of_ne_await (hp : s.phase ≠ .await) :
    exec .rxeos s = .next (markEndOfStream s) :=
  congrArg _ (if_neg hp)

theorem exec_ioerr_of_idle (hp : s.phase = .idle) : exec .ioerr s = .next s :=
  congrArg _ (if_neg (by simp [hp]))

theorem exec_ioerr_of_ne_idle (hp : s.phase ≠ .idle) :
    exec .ioerr s = .next (abandonExchange s) := by
  refine congrArg _ (if_pos ?_)
  cases h : s.phase with
  | idle => exact absurd h hp
  | tx => exact .inl rfl
  | await => exact .inr rfl

theorem exec_txtake_of_nil (htx : s.tx = []) : exec .txtake s = .fault .txtakeWhileTxEmpty := by
  simp [exec, execTxtake, htx]

theorem exec_txtake_of_cons {b : Byte} {rest : List Byte} (htx : s.tx = b :: rest) :
    exec .txtake s = .next (afterTake (emitFront b rest s)) := by
  simp [exec, execTxtake, htx]

theorem afterTake_of_ne_nil (h : s.tx ≠ []) : afterTake s = s :=
  if_neg h

theorem afterTake_of_nil (h : s.tx = []) (he : s.eos = false) :
    afterTake s = { s with phase := .await } :=
  (if_pos h).trans (if_neg (by simp [he]))

theorem afterTake_of_nil_of_eos (h : s.tx = []) (he : s.eos = true) :
    afterTake s = endExchange .errEof s :=
  (if_pos h).trans (if_pos he)

end Sys2Proof.Machine

section
open Sys2Proof Sys2Proof.Machine

/-- Settles O16: the two meanings are one write of `crc` each. -/
theorem crcUnitCommandsWriteOnlyCrc : Obligations.CrcUnitCommandsWriteOnlyCrc := by
  unfold Obligations.CrcUnitCommandsWriteOnlyCrc
  intro s b
  exact ⟨rfl, rfl⟩

/-- Settles O22: STBYTE by whether `stage` is full. -/
theorem stagingCommandsWriteOnlyStage : Obligations.StagingCommandsWriteOnlyStage := by
  unfold Obligations.StagingCommandsWriteOnlyStage
  intro s b
  exact ⟨rfl, exec_stbyte_of_room b, exec_stbyte_of_full b⟩

/-- Settles O23: in IDLE the condition holds, and the action writes the request frame. -/
theorem sendStartsAnExchange : Obligations.SendStartsAnExchange := by
  unfold Obligations.SendStartsAnExchange
  intro s hp
  exact exec_send_of_idle hp

/-- Settles O24: the four gated commands outside IDLE, and SETCFG's reserved bits. -/
theorem gatedCommandsRaiseIllOutsideIdle : Obligations.GatedCommandsRaiseIllOutsideIdle := by
  unfold Obligations.GatedCommandsRaiseIllOutsideIdle
  intro s imm
  refine ⟨fun hp => ?outsideIdle, fun himm => exec_setcfg_of_reserved himm⟩
  have hill : ∀ i : Instr, i.isGated = true → exec i s = .next (raiseIll s) :=
    fun i hg => exec_of_isGated_of_ne_idle hg hp
  exact ⟨hill .send rfl, hill .decode rfl, hill .decodef rfl, hill (.setcfg imm) rfl⟩

/-- Settles O38: both commands apply one extraction, with or without the final bit. -/
theorem decodeCommandsApplyOneExtraction : Obligations.DecodeCommandsApplyOneExtraction := by
  unfold Obligations.DecodeCommandsApplyOneExtraction
  rintro s _ _ hp rfl rfl
  rw [exec_decode_of_idle hp, exec_decodef_of_idle hp, extractOnce_eq, extractOnce_eq]
  exact ⟨rfl, rfl⟩

/-- Settles O39: with room and outside AWAIT a received byte is only stored. -/
theorem receiveOutsideAwaitOnlyStores : Obligations.ReceiveOutsideAwaitOnlyStores := by
  unfold Obligations.ReceiveOutsideAwaitOnlyStores
  intro s d he hroom hp
  rw [exec_rxb d he, receive_of_room d hroom hp]
  rfl

/-- Settles O40: with room and in AWAIT a received byte is stored and extracted once. -/
theorem receiveInAwaitExtractsOnce : Obligations.ReceiveInAwaitExtractsOnce := by
  unfold Obligations.ReceiveInAwaitExtractsOnce
  rintro s d _ he hroom hp rfl
  rw [exec_rxb d he, receive_of_room_in_await d hroom hp,
    autoExtract_eq (s := storeReceived d s) hp]
  rfl

/-- Settles O41: a received byte that finds `rx` full is an overflow, in every phase. -/
theorem receiveOverflowDiscardsEverything : Obligations.ReceiveOverflowDiscardsEverything := by
  unfold Obligations.ReceiveOverflowDiscardsEverything
  intro s d he hfull
  rw [exec_rxb d he, receive_of_full d hfull, overflow_eq]
  rfl

/-- Settles O42: the byte is emitted, and the last one of `tx` moves the exchange on by `eos`. -/
theorem txtakeEmitsTheFrontByte : Obligations.TxtakeEmitsTheFrontByte := by
  unfold Obligations.TxtakeEmitsTheFrontByte
  intro s b rest htx
  rw [exec_txtake_of_cons htx]
  refine ⟨fun hne => ?goesOn, ?waits, ?ends⟩
  case goesOn => exact congrArg _ (afterTake_of_ne_nil (s := emitFront b rest s) hne)
  case waits =>
    rintro rfl he
    exact congrArg _ (afterTake_of_nil (s := emitFront b [] s) rfl he)
  case ends =>
    rintro rfl he
    exact congrArg _ (afterTake_of_nil_of_eos (s := emitFront b [] s) rfl he)

/-- Settles O43: the two events by the phase. -/
theorem endOfStreamAndFailureEndTheExchange : Obligations.EndOfStreamAndFailureEndTheExchange := by
  unfold Obligations.EndOfStreamAndFailureEndTheExchange
  intro s
  exact ⟨exec_rxeos_of_await, exec_rxeos_of_ne_await, exec_ioerr_of_ne_idle, exec_ioerr_of_idle⟩

/-- Settles O55: three commands without a condition, and SETCFG's two operands in IDLE. -/
theorem controlCommandsWriteOnlyTheirState : Obligations.ControlCommandsWriteOnlyTheirState := by
  unfold Obligations.ControlCommandsWriteOnlyTheirState
  intro s
  exact ⟨rfl, rfl, rfl, fun hp =>
    ⟨exec_setcfg_of_idle hp (by decide), exec_setcfg_of_idle hp (by decide)⟩⟩

end
end

section
/-! SUPPORT. Which inputs have no step, and that every other one has
(43_accumulator.md R172, 30_encoding.md R74). -/

namespace Sys2Proof

/-- An instruction that its agent cannot give: a byte after end of stream, or a take from an empty
`tx` (R172). -/
def Instr.Missing (i : Instr) (s : Machine.State) : Prop :=
  (∃ d, i = .rxb d ∧ s.eos = true) ∨ (i = .txtake ∧ s.tx = [])

end Sys2Proof

namespace Sys2Proof.Machine

variable {s : State} {i : Instr} {w : Word} {rest : List Input}

/-! ### The moves that do not exist -/

theorem exec_fault_of_missing (h : i.Missing s) : ∃ r, exec i s = .fault r := by
  rcases h with ⟨d, rfl, he⟩ | ⟨rfl, htx⟩
  · exact ⟨_, exec_rxb_of_eos d he⟩
  · exact ⟨_, exec_txtake_of_nil htx⟩

/-- Every other instruction has a next state. -/
theorem exec_next_of_not_missing (h : ¬ i.Missing s) : ∃ t, exec i s = .next t := by
  cases i with
  | rxb d =>
    have he : s.eos = false := by simpa [Instr.Missing] using h
    exact ⟨_, exec_rxb d he⟩
  | txtake =>
    have htx : s.tx ≠ [] := by simpa [Instr.Missing] using h
    obtain ⟨b, rest, hb⟩ := List.exists_cons_of_ne_nil htx
    exact ⟨_, exec_txtake_of_cons hb⟩
  | _ => exact ⟨_, rfl⟩

theorem enabled_port_iff (h : decodeTransport w = some i) :
    (Input.port w).enabled s = false ↔ i.Missing s := by
  obtain ⟨ht, -, -⟩ := encode_of_decodeTransport h
  cases i with
  | rxb d => simp [Input.enabled, h, Instr.Missing]
  | txtake => simp [Input.enabled, h, Instr.Missing]
  | rxeos | ioerr => simp [Input.enabled, h, Instr.Missing]
  | _ => cases ht

theorem not_missing_of_command (ht : i.isTransport = false) : ¬ i.Missing s := by
  rintro (⟨d, rfl, -⟩ | ⟨rfl, -⟩) <;> cases ht

theorem performTransport_of_decode_none (h : decodeTransport w = none) (s : State) :
    performTransport w s = .fault .notATransportEvent := by
  simp [performTransport, h]

/-- An input has a next state when it is enabled, and faults when it is not. -/
theorem deliver_by_enabled (inp : Input) (s : State) :
    (inp.enabled s = true ∧ ∃ t, deliver inp s = .next t) ∨
    (inp.enabled s = false ∧ ∃ r, deliver inp s = .fault r) := by
  cases inp with
  | write a v =>
    refine .inl ⟨rfl, ?_⟩
    by_cases ha : a = cmdAddr
    · rw [deliver, ha, busWrite_cmd]
      cases hd : decodeCommand v with
      | none => exact ⟨_, performCommand_of_decode_none hd s⟩
      | some i =>
        rw [performCommand_of_decode hd]
        exact exec_next_of_not_missing (not_missing_of_command (encode_of_decodeCommand hd).1)
    · exact ⟨_, busWrite_of_ne_cmd ha v s⟩
  | read a => exact .inl ⟨rfl, _, rfl⟩
  | reset => exact .inl ⟨rfl, _, rfl⟩
  | port w =>
    cases hd : decodeTransport w with
    | none => exact .inr ⟨by simp [Input.enabled, hd], _, performTransport_of_decode_none hd s⟩
    | some i =>
      rw [deliver_of_instr (inp := .port w) hd]
      cases he : (Input.port w).enabled s with
      | false => exact .inr ⟨rfl, exec_fault_of_missing ((enabled_port_iff hd).mp he)⟩
      | true =>
        refine .inl ⟨rfl, exec_next_of_not_missing fun hm => ?_⟩
        simp [(enabled_port_iff hd).mpr hm] at he

/-- No input waits for itself: whether a move exists does not depend on the inputs to come. -/
theorem enabled_pending (inp : Input) (s : State) (inputs : List Input) :
    inp.enabled { s with pending := inputs } = inp.enabled s := rfl

/-! ### The words that are no event -/

/-- The word of an event is in one of R74's four rows. -/
theorem decodeTransport_eq_none (hrxb : w.toNat / 256 ≠ 0x80) (hrxeos : w ≠ 0x8100#16)
    (hioerr : w ≠ 0x8200#16) (htxtake : w ≠ 0x8300#16) : decodeTransport w = none := by
  rw [Option.eq_none_iff_forall_ne_some]
  intro i hi
  obtain ⟨ht, -, rfl⟩ := encode_of_decodeTransport hi
  cases i with
  | rxb d =>
    rw [encode, withOperand_toNat d rfl] at hrxb
    have := d.isLt
    simp at hrxb
    omega
  | rxeos => exact hrxeos rfl
  | ioerr => exact hioerr rfl
  | txtake => exact htxtake rfl
  | _ => cases ht

theorem step_of_no_event (hd : decodeTransport w = none) (h : s.pending = .port w :: rest) :
    step s = .fault .notATransportEvent := by
  rw [step_of_input h]
  exact performTransport_of_decode_none hd _

end Sys2Proof.Machine

section
open Sys2Proof Sys2Proof.Machine

/-- Settles O8: an input that performs an instruction is delivered as `exec` of it. -/
theorem stepRunsTheDecodedInstruction : Obligations.StepRunsTheDecodedInstruction := by
  unfold Obligations.StepRunsTheDecodedInstruction
  intro s w i rest
  constructor
  · intro h hd
    rw [step_of_input h, deliver_of_instr (inp := cmdIn w) (instr_write_eq_some.mpr ⟨rfl, hd⟩)]
  · intro h hd
    rw [step_of_input h, deliver_of_instr (inp := .port w) hd]

/-- Settles O9: a step without input has a next state; with one, it is a fault exactly when the
input is not enabled. -/
theorem stepStopsExactlyOnMissingMoves : Obligations.StepStopsExactlyOnMissingMoves := by
  unfold Obligations.StepStopsExactlyOnMissingMoves
  intro s
  cases hp : s.pending with
  | nil => simp [step_of_no_input hp]
  | cons inp rest =>
    have hstep := step_of_input hp
    rcases deliver_by_enabled inp { s with pending := rest } with ⟨he, t, ht⟩ | ⟨he, r, hr⟩
    · rw [enabled_pending] at he
      simp [hstep, ht, he]
    · rw [enabled_pending] at he
      simp [hstep, hr, he]

/-- Settles O44: the two missing moves, and a word in none of R74's rows. -/
theorem missingTransportMovesHaveNoStep : Obligations.MissingTransportMovesHaveNoStep := by
  unfold Obligations.MissingTransportMovesHaveNoStep
  intro s rest d w
  refine ⟨fun he h => ?rxb, fun htx h => ?txtake, fun h hrxb hrxeos hioerr htxtake => ?noEvent⟩
  case rxb =>
    rw [step_of_toInput (i := .rxb d) rfl h]
    exact exec_rxb_of_eos d he
  case txtake =>
    rw [step_of_toInput (i := .txtake) rfl h]
    exact exec_txtake_of_nil htx
  case noEvent => exact step_of_no_event (decodeTransport_eq_none hrxb hrxeos hioerr htxtake) h

end
end

section
/-! SUPPORT. The state after reset (10_state.md R22, 70_reset_and_hazards.md R250). -/

namespace Sys2Proof.Machine

/-- The open constants of Config lie in the legal ranges by their types (00_scope.md R6; log 1). -/
theorem ofConfig_legal : Params.ofConfig.Legal := by
  have hrx := Config.rxSlack.isLt
  have hstage := Config.stageSlack.isLt
  simp only [Params.Legal, Params.ofConfig]
  omega

end Sys2Proof.Machine

section
open Sys2Proof Sys2Proof.Machine

/-- Settles O12: `State.powerOn` lists the values, and the parameters are legal by their types. -/
theorem resetStateValues : Obligations.ResetStateValues := by
  unfold Obligations.ResetStateValues
  exact ⟨rfl, rfl, rfl, rfl, rfl, rfl, rfl, rfl, rfl, rfl, rfl, rfl, rfl, rfl, rfl, ofConfig_legal,
    rfl, rfl, rfl, rfl, rfl, rfl, rfl, rfl, rfl⟩

/-- Settles O13: the state after reset is `State.powerOn` of legal parameters. -/
theorem resetMeetsTheInvariant : Obligations.ResetMeetsTheInvariant := by
  unfold Obligations.ResetMeetsTheInvariant
  exact powerOn_inv ofConfig_legal []

end
end

section
/-! SUPPORT. What an instruction leaves unchanged: the model's own fields, the CRC unit, the window
convention, the request on its way, the queue of received bytes. -/

namespace Sys2Proof.Machine

variable {s t : State} {i : Instr} {c : Word}

/-! ### The shared operations -/

/-- A received byte writes these fields only (R174, R175). -/
theorem receive_frame (d : Byte) (s : State) :
    ∃ rx pl ph r o cand cons skip, receive d s =
      { s with
        rx := rx, pl := pl, phase := ph, res := r, ovf := o, cand := cand, consumed := cons
        skip := skip } := by
  rcases receive_cases d s with ⟨_, h⟩ | ⟨_, _, h⟩ | ⟨_, _, h⟩ <;> rw [h]
  · rw [overflow_eq]
    exact ⟨_, _, _, _, _, _, _, _, rfl⟩
  · rcases autoExtract_cases (storeReceived d s) with ⟨_, ha⟩ | ⟨_, ha⟩ <;> rw [ha] <;>
      exact ⟨_, _, _, _, _, _, _, _, rfl⟩
  · exact ⟨_, _, _, _, _, _, _, _, rfl⟩

/-- After a byte was taken only the phase and RES are written (R180). -/
theorem afterTake_frame (s : State) : ∃ ph r, afterTake s = { s with phase := ph, res := r } := by
  rcases afterTake_cases s with ⟨_, h⟩ | ⟨_, _, h⟩ | ⟨_, _, h⟩ <;> rw [h] <;> exact ⟨_, _, rfl⟩

/-! ### The model's own fields -/

/-- `t` follows `s` with the parameters, the inputs to come and the answers as they were, and at
most one byte more emitted. -/
structure EmitsAtMostOne (s t : State) : Prop where
  params : t.params = s.params
  pending : t.pending = s.pending
  answers : t.answers = s.answers
  emitted : ∃ e, t.emitted = s.emitted ++ e ∧ e.length ≤ 1

theorem EmitsAtMostOne.of_emitted_eq (hparams : t.params = s.params)
    (hpending : t.pending = s.pending) (hanswers : t.answers = s.answers)
    (hemitted : t.emitted = s.emitted) : EmitsAtMostOne s t :=
  ⟨hparams, hpending, hanswers, [], by simp [hemitted], by simp⟩

theorem exec_emitsAtMostOne (h : exec i s = .next t) : EmitsAtMostOne s t := by
  cases i with
  | nop | crcinit | crcbyte _ | stclr | clrflags | release =>
    cases h
    exact .of_emitted_eq rfl rfl rfl rfl
  | stbyte b => cases h; split <;> exact .of_emitted_eq rfl rfl rfl rfl
  | send | decode | decodef | setcfg _ =>
    cases h
    exact actOrIll_keeps (fun _ => .of_emitted_eq rfl rfl rfl rfl) (.of_emitted_eq rfl rfl rfl rfl)
  | rxb d =>
    obtain ⟨-, rfl⟩ := execRxb_eq_next h
    obtain ⟨_, _, _, _, _, _, _, _, hr⟩ := receive_frame d s
    rw [hr]
    exact .of_emitted_eq rfl rfl rfl rfl
  | rxeos => cases h; split <;> exact .of_emitted_eq rfl rfl rfl rfl
  | ioerr => cases h; split <;> exact .of_emitted_eq rfl rfl rfl rfl
  | txtake =>
    obtain ⟨b, rest, -, rfl⟩ := execTxtake_eq_next h
    obtain ⟨_, _, ha⟩ := afterTake_frame (emitFront b rest s)
    rw [ha]
    exact ⟨rfl, rfl, rfl, [b], rfl, le_rfl⟩

/-! ### The CRC unit -/

theorem actOrIll_setCrc {f : State → State} (hf : f (setCrc c s) = setCrc c (f s)) (b : Bool) :
    actOrIll b f (setCrc c s) = setCrc c (actOrIll b f s) := by
  cases b
  · rfl
  · exact hf

theorem receive_setCrc (d : Byte) (c : Word) (s : State) :
    receive d (setCrc c s) = setCrc c (receive d s) := by
  rcases receive_cases d s with ⟨hfull, h⟩ | ⟨hroom, hp, h⟩ | ⟨hroom, hp, h⟩ <;> rw [h]
  · rw [receive_of_full (s := setCrc c s) d hfull, overflow_eq, overflow_eq]
    rfl
  · rw [receive_of_room_in_await (s := setCrc c s) d hroom hp,
      autoExtract_eq (s := storeReceived d (setCrc c s)) hp,
      autoExtract_eq (s := storeReceived d s) hp]
    rfl
  · rw [receive_of_room (s := setCrc c s) d hroom hp]
    rfl

theorem afterTake_setCrc (c : Word) (s : State) :
    afterTake (setCrc c s) = setCrc c (afterTake s) := by
  rcases afterTake_cases s with ⟨htx, h⟩ | ⟨htx, he, h⟩ | ⟨htx, he, h⟩ <;> rw [h]
  · exact afterTake_of_ne_nil (s := setCrc c s) htx
  · exact afterTake_of_nil_of_eos (s := setCrc c s) htx he
  · exact afterTake_of_nil (s := setCrc c s) htx he

/-- Outside the CRC unit an instruction acts the same whatever `crc` holds, and leaves it (R23). -/
theorem exec_setCrc (hinit : i ≠ .crcinit) (hbyte : ∀ b, i ≠ .crcbyte b) (h : exec i s = .next t)
    (c : Word) : exec i (setCrc c s) = .next (setCrc c t) := by
  cases i with
  | crcinit => exact absurd rfl hinit
  | crcbyte b => exact absurd rfl (hbyte b)
  | nop | stclr | clrflags | release => cases h; rfl
  | stbyte b =>
    cases h
    split
    · next hfull => exact exec_stbyte_of_full (s := setCrc c s) b hfull
    · next hroom => exact exec_stbyte_of_room (s := setCrc c s) b hroom
  | send => cases h; exact congrArg _ (actOrIll_setCrc (c := c) (f := startExchange) rfl _)
  | decode => cases h; exact congrArg _ (actOrIll_setCrc (c := c) (f := extractOnce false) rfl _)
  | decodef => cases h; exact congrArg _ (actOrIll_setCrc (c := c) (f := extractOnce true) rfl _)
  | setcfg imm =>
    cases h
    exact congrArg _ (actOrIll_setCrc (c := c) (f := setWindow (setcfgWin imm)) rfl _)
  | rxb d =>
    obtain ⟨he, rfl⟩ := execRxb_eq_next h
    rw [exec_rxb (s := setCrc c s) d he, receive_setCrc]
  | rxeos =>
    cases h
    split
    · next hp => exact exec_rxeos_of_await (s := setCrc c s) hp
    · next hp => exact exec_rxeos_of_ne_await (s := setCrc c s) hp
  | ioerr =>
    by_cases hp : s.phase = .idle
    · rw [exec_ioerr_of_idle hp] at h
      cases h
      exact exec_ioerr_of_idle (s := setCrc c s) hp
    · rw [exec_ioerr_of_ne_idle hp] at h
      cases h
      exact exec_ioerr_of_ne_idle (s := setCrc c s) hp
  | txtake =>
    obtain ⟨b, rest, hb, rfl⟩ := execTxtake_eq_next h
    rw [exec_txtake_of_cons (s := setCrc c s) hb, ← afterTake_setCrc]
    rfl

theorem exec_crc (hinit : i ≠ .crcinit) (hbyte : ∀ b, i ≠ .crcbyte b) (h : exec i s = .next t) :
    t.crc = s.crc := by
  have hkept := exec_setCrc hinit hbyte h s.crc
  rw [show setCrc s.crc s = s from rfl, h] at hkept
  injection hkept with ht
  rw [ht]
  rfl

/-! ### The window convention -/

/-- `win` is written by SETCFG in IDLE only (R24). -/
theorem exec_win (h : exec i s = .next t) :
    t.win = s.win ∨ ∃ imm, i = .setcfg imm ∧ s.phase = .idle ∧ t.win = setcfgWin imm := by
  cases i with
  | nop | crcinit | crcbyte _ | stclr | clrflags | release => cases h; exact .inl rfl
  | stbyte b => cases h; split <;> exact .inl rfl
  | send | decode | decodef =>
    cases h
    exact .inl (actOrIll_keeps (P := fun t => t.win = s.win) (fun _ => rfl) rfl)
  | setcfg imm =>
    cases h
    rcases actOrIll_cases (isIdle s && setcfgReservedZero imm) (setWindow (setcfgWin imm)) s with
      ⟨hc, ha⟩ | ⟨_, ha⟩ <;> rw [ha]
    · rw [Bool.and_eq_true, isIdle_eq_true] at hc
      exact .inr ⟨imm, rfl, hc.1, rfl⟩
    · exact .inl rfl
  | rxb d =>
    obtain ⟨-, rfl⟩ := execRxb_eq_next h
    obtain ⟨_, _, _, _, _, _, _, _, hr⟩ := receive_frame d s
    rw [hr]
    exact .inl rfl
  | rxeos => cases h; split <;> exact .inl rfl
  | ioerr => cases h; split <;> exact .inl rfl
  | txtake =>
    obtain ⟨b, rest, -, rfl⟩ := execTxtake_eq_next h
    obtain ⟨_, _, ha⟩ := afterTake_frame (emitFront b rest s)
    rw [ha]
    exact .inl rfl

/-! ### The request on its way -/

/-- In TX an instruction only moves bytes from the front of `tx` to the end of what was emitted, or
it abandons the exchange (R156). -/
theorem exec_in_tx (hp : s.phase = .tx) (h : exec i s = .next t) :
    t.emitted ++ t.tx = s.emitted ++ s.tx ∨
    ((i = .ioerr ∨ i = .release) ∧ t.emitted = s.emitted ∧ t.tx = [] ∧ t.phase = .idle) := by
  cases i with
  | nop | crcinit | crcbyte _ | stclr | clrflags => cases h; exact .inl rfl
  | stbyte b => cases h; split <;> exact .inl rfl
  | send | decode | decodef | setcfg _ =>
    rw [exec_of_isGated_of_ne_idle rfl (by simp [hp])] at h
    cases h
    exact .inl rfl
  | release => cases h; exact .inr ⟨.inr rfl, rfl, rfl, rfl⟩
  | rxb d =>
    obtain ⟨-, rfl⟩ := execRxb_eq_next h
    obtain ⟨_, _, _, _, _, _, _, _, hr⟩ := receive_frame d s
    rw [hr]
    exact .inl rfl
  | rxeos => cases h; split <;> exact .inl rfl
  | ioerr =>
    rw [exec_ioerr_of_ne_idle (by simp [hp])] at h
    cases h
    exact .inr ⟨.inl rfl, rfl, rfl, rfl⟩
  | txtake =>
    obtain ⟨b, rest, hb, rfl⟩ := execTxtake_eq_next h
    obtain ⟨_, _, ha⟩ := afterTake_frame (emitFront b rest s)
    rw [ha]
    exact .inl (by simp [hb])

/-! ### The received bytes -/

/-- Receiving appends the byte and removes a front, all of `rx` on an overflow. -/
theorem receive_rx (d : Byte) (s : State) : ∃ n, (receive d s).rx = (s.rx ++ [d]).drop n := by
  rcases receive_cases d s with ⟨_, h⟩ | ⟨_, hp, h⟩ | ⟨_, _, h⟩ <;> rw [h]
  · exact ⟨(s.rx ++ [d]).length, by rw [overflow_eq, List.drop_length]⟩
  · exact ⟨_, by rw [autoExtract_eq (s := storeReceived d s) hp]; rfl⟩
  · exact ⟨0, rfl⟩

/-- An instruction removes a front of `rx`, RXB after appending its byte (R28). -/
theorem exec_rx (h : exec i s = .next t) :
    (∃ n, t.rx = s.rx.drop n) ∨ ∃ d n, i = .rxb d ∧ t.rx = (s.rx ++ [d]).drop n := by
  cases i with
  | nop | crcinit | crcbyte _ | stclr | clrflags => cases h; exact .inl ⟨0, rfl⟩
  | stbyte b => cases h; split <;> exact .inl ⟨0, rfl⟩
  | send | setcfg _ =>
    cases h
    exact .inl ⟨0, actOrIll_keeps (P := fun t => t.rx = s.rx) (fun _ => rfl) rfl⟩
  | decode | decodef =>
    cases h
    exact .inl (actOrIll_keeps (P := fun t => ∃ n, t.rx = s.rx.drop n) (fun _ => ⟨_, rfl⟩) ⟨0, rfl⟩)
  | release => cases h; exact .inl ⟨s.rx.length, List.drop_length.symm⟩
  | rxb d =>
    obtain ⟨-, rfl⟩ := execRxb_eq_next h
    obtain ⟨n, hn⟩ := receive_rx d s
    exact .inr ⟨d, n, rfl, hn⟩
  | rxeos => cases h; split <;> exact .inl ⟨0, rfl⟩
  | ioerr => cases h; split <;> exact .inl ⟨0, rfl⟩
  | txtake =>
    obtain ⟨b, rest, -, rfl⟩ := execTxtake_eq_next h
    obtain ⟨_, _, ha⟩ := afterTake_frame (emitFront b rest s)
    rw [ha]
    exact .inl ⟨0, rfl⟩

end Sys2Proof.Machine

section
open Sys2Proof Sys2Proof.Machine

/-- Settles O10: an instruction emits at most one byte and answers nothing, a read answers one
word, and the rest puts nothing out. -/
theorem stepTakesOneInputAndKeepsOutputs : Obligations.StepTakesOneInputAndKeepsOutputs := by
  unfold Obligations.StepTakesOneInputAndKeepsOutputs
  refine fun s => ⟨step_of_no_input, fun t h => ?_⟩
  rcases step_input_cases h with ⟨hp, rfl⟩ | ⟨inp, rest, hp, ⟨i, _, he⟩ | ⟨_, _, rfl⟩ |
    ⟨a, _, rfl⟩ | ⟨_, rfl⟩⟩
  · simp [hp]
  · obtain ⟨hparams, hpending, hanswers, e, hemitted, hlen⟩ := exec_emitsAtMostOne he
    simp [hp, hparams, hpending, hanswers, hemitted, hlen]
  · simp [hp]
  · simp [hp]
  · simp [hp]

/-- Settles O21: outside the CRC unit `exec` commutes with writing `crc`, so that it neither reads
nor changes it; of the inputs that perform nothing only reset writes it. -/
theorem crcUnitIsApartFromTheCodec : Obligations.CrcUnitIsApartFromTheCodec := by
  unfold Obligations.CrcUnitIsApartFromTheCodec
  refine ⟨fun s t h hne => ?writers, fun i s t c hinit hbyte h => exec_setCrc hinit hbyte h c⟩
  rcases step_input_cases h with ⟨_, rfl⟩ | ⟨inp, rest, hp, ⟨i, hi, he⟩ | ⟨_, _, rfl⟩ |
    ⟨a, _, rfl⟩ | ⟨rfl, rfl⟩⟩
  · exact absurd rfl hne
  · obtain ⟨_, rfl⟩ := toInput_of_instr hi
    refine ⟨rest, ?_⟩
    by_cases hinit : i = .crcinit
    · subst hinit
      exact .inl hp
    · by_cases hbyte : ∃ b, i = .crcbyte b
      · obtain ⟨b, rfl⟩ := hbyte
        exact .inr (.inr ⟨b, hp⟩)
      · exact absurd (exec_crc hinit (not_exists.mp hbyte) he) hne
  · exact absurd rfl hne
  · exact absurd rfl hne
  · exact ⟨rest, .inr (.inl hp)⟩

/-- Settles O54: SETCFG in IDLE, whose word carries the operand 0 or 1, and reset. -/
theorem windowChangesOnlyBySetcfg : Obligations.WindowChangesOnlyBySetcfg := by
  unfold Obligations.WindowChangesOnlyBySetcfg
  intro s t h hne
  rcases step_input_cases h with ⟨_, rfl⟩ | ⟨inp, rest, hp, ⟨i, hi, he⟩ | ⟨_, _, rfl⟩ |
    ⟨a, _, rfl⟩ | ⟨rfl, rfl⟩⟩
  · exact absurd rfl hne
  · obtain ⟨hwf, rfl⟩ := toInput_of_instr hi
    rcases exec_win he with hwin | ⟨imm, rfl, hidle, hwin⟩
    · exact absurd hwin hne
    · refine .inl ⟨hidle, rest, ?_⟩
      obtain rfl | rfl : imm = 0#8 ∨ imm = 1#8 := by
        have := (wellFormed_setcfg_iff imm).mp hwf
        bv_omega
      · exact .inl ⟨hp, hwin⟩
      · exact .inr ⟨hp, hwin⟩
  · exact absurd rfl hne
  · exact absurd rfl hne
  · exact .inr ⟨rfl, rest, hp⟩

/-- Settles O27: in TX an instruction moves bytes from `tx` to the emitted ones or abandons the
exchange, as reset does. -/
theorem transmissionLosesNoByte : Obligations.TransmissionLosesNoByte := by
  unfold Obligations.TransmissionLosesNoByte
  intro s t hphase h
  rcases step_input_cases h with ⟨_, rfl⟩ | ⟨inp, rest, hp, ⟨i, hi, he⟩ | ⟨_, _, rfl⟩ |
    ⟨a, _, rfl⟩ | ⟨rfl, rfl⟩⟩
  · exact .inl rfl
  · obtain ⟨_, rfl⟩ := toInput_of_instr hi
    rcases exec_in_tx (s := { s with pending := rest }) hphase he with
      hsame | ⟨rfl | rfl, hemitted, htx, hidle⟩
    · exact .inl hsame
    · exact .inr ⟨hemitted, htx, hidle, rest, .inl hp⟩
    · exact .inr ⟨hemitted, htx, hidle, rest, .inr (.inl hp)⟩
  · exact .inl rfl
  · exact .inl rfl
  · exact .inr ⟨rfl, rfl, rfl, rest, .inr (.inr hp)⟩

/-- Settles O48: the instructions by `exec_rx`; reset removes all of `rx`, and the other inputs
leave it. -/
theorem receiveBufferIsAQueue : Obligations.ReceiveBufferIsAQueue := by
  unfold Obligations.ReceiveBufferIsAQueue
  intro s t h
  rcases step_input_cases h with ⟨_, rfl⟩ | ⟨inp, rest, hp, ⟨i, hi, he⟩ | ⟨_, _, rfl⟩ |
    ⟨a, _, rfl⟩ | ⟨rfl, rfl⟩⟩
  · exact .inl ⟨0, rfl⟩
  · obtain ⟨_, rfl⟩ := toInput_of_instr hi
    rcases exec_rx he with hfront | ⟨d, n, rfl, hn⟩
    · exact .inl hfront
    · exact .inr ⟨d, rest, n, hp, hn⟩
  · exact .inl ⟨0, rfl⟩
  · exact .inl ⟨0, rfl⟩
  · exact .inl ⟨s.rx.length, List.drop_length.symm⟩

end
end

section
/-! SUPPORT. Runs of several inputs of one kind: the bytes fed to the CRC unit (40_crc.md R104,
R105) and the bytes the transport takes (42_encoder.md R156, 43_accumulator.md R180). -/

namespace Sys2Proof.Machine

variable {s : State} {rest : List Input}

/-! ### The CRC unit -/

theorem lowByte_shifted (c : Word) : (lowByte c).setWidth 16 <<< 8 = c <<< 8 := by
  ext i hi
  rcases Nat.lt_or_ge i 8 with hlow | hhigh
  · simp [hlow]
  · have hbyte : i - 8 < 8 := by omega
    have hword : i - 8 < 16 := by omega
    simp [lowByte, Nat.not_lt.mpr hhigh, hbyte, BitVec.getLsbD_eq_getElem hword]

theorem step_of_crcinit (h : s.pending = cmdIn 0x0100#16 :: rest) :
    step s = .next { s with crc := 0x0000#16, pending := rest } :=
  step_of_toInput (i := .crcinit) rfl h

theorem step_of_crcbyte {b : Byte} (h : s.pending = cmdIn (0x0200#16 ||| b.setWidth 16) :: rest) :
    step s = .next { s with crc := crcStep s.crc b, pending := rest } :=
  step_of_toInput (i := .crcbyte b) rfl h

/-- One CRCBYTE for each byte of `d` accumulates `d` onto `crc`. -/
theorem runSteps_crcbytes {d : List Byte}
    (h : s.pending = d.map (fun b => cmdIn (0x0200#16 ||| b.setWidth 16)) ++ rest) :
    runSteps d.length s = .next { s with crc := crcFrom s.crc d, pending := rest } := by
  induction d generalizing s with
  | nil =>
    obtain rfl : s.pending = rest := h
    rfl
  | cons b d ih => exact (runSteps_succ_of_step d.length (step_of_crcbyte h)).trans (ih rfl)

/-! ### The request -/

theorem step_of_send (hp : s.phase = .idle) (h : s.pending = cmdIn 0x1200#16 :: rest) :
    step s = .next (startExchange { s with pending := rest }) :=
  (step_of_toInput (i := .send) rfl h).trans
    (exec_send_of_idle (s := { s with pending := rest }) hp)

theorem step_of_txtake {b : Byte} {bytes : List Byte} (htx : s.tx = b :: bytes)
    (h : s.pending = .port 0x8300#16 :: rest) :
    step s = .next (afterTake (emitFront b bytes { s with pending := rest })) :=
  (step_of_toInput (i := .txtake) rfl h).trans
    (exec_txtake_of_cons (s := { s with pending := rest }) htx)

/-- One TXTAKE for each byte of a `tx` that is not empty emits it all, and what follows the last
byte is the end of the request. -/
theorem runSteps_txtakes {b : Byte} {bytes : List Byte} (htx : s.tx = b :: bytes)
    (h : s.pending = List.replicate (bytes.length + 1) (.port 0x8300#16) ++ rest) :
    runSteps (bytes.length + 1) s =
      .next (afterTake { s with
        tx := [], emitted := s.emitted ++ b :: bytes, pending := rest }) := by
  induction bytes generalizing s b with
  | nil => exact runSteps_succ_of_step 0 (step_of_txtake htx h)
  | cons b' bytes ih =>
    rw [runSteps_succ_of_step _ (step_of_txtake htx h),
      afterTake_of_ne_nil (by simp), List.length_cons, ih rfl rfl]
    simp [emitFront]

/-- The state in which the last byte of a request sent from `s` has just been emitted. -/
def requestEmitted (rest : List Input) (s : State) : State :=
  { startExchange s with tx := [], emitted := s.emitted ++ frameReq s.stage, pending := rest }

/-- SEND and one TXTAKE for each byte of the request emit the request frame (R156). -/
theorem runSteps_request (hp : s.phase = .idle)
    (h : s.pending = cmdIn 0x1200#16 ::
      (List.replicate (s.stage.length + 3) (.port 0x8300#16) ++ rest)) :
    runSteps (s.stage.length + 4) s = .next (afterTake (requestEmitted rest s)) := by
  obtain ⟨b, bytes, hframe⟩ := List.exists_cons_of_ne_nil (frameReq_ne_nil s.stage)
  have hlen : s.stage.length + 3 = bytes.length + 1 := by
    rw [← frameReq_length, hframe, List.length_cons]
  rw [hlen] at h
  rw [runSteps_succ_of_step _ (step_of_send hp h), hlen, runSteps_txtakes hframe rfl,
    requestEmitted, hframe]
  rfl

end Sys2Proof.Machine

section
open Sys2Proof Sys2Proof.Machine

/-- Settles O17: a step is linear, and over the accumulator's own high byte it only moves the low
byte up. -/
theorem crcStepIsTableDriven : Obligations.CrcStepIsTableDriven := by
  unfold Obligations.CrcStepIsTableDriven
  intro c b
  calc crcStep c b
      = crcStep (c ^^^ 0x0000#16) (highByte c ^^^ (highByte c ^^^ b)) := by
        rw [BitVec.xor_zero, ← BitVec.xor_assoc, BitVec.xor_self, BitVec.zero_xor]
    _ = crcStep c (highByte c) ^^^ crcStep 0x0000#16 (highByte c ^^^ b) := crcStep_xor _ _ _ _
    _ = (c <<< 8) ^^^ crcStep 0x0000#16 (highByte c ^^^ b) := by
        rw [crcStep_highByte, lowByte_shifted]

/-- Settles O20: CRCINIT leaves 0, from which the bytes accumulate one by one. -/
theorem crcUnitComputesCrc16 : Obligations.CrcUnitComputesCrc16 := by
  unfold Obligations.CrcUnitComputesCrc16
  intro s d rest h
  rw [runSteps_succ_of_step _ (step_of_crcinit h)]
  exact runSteps_crcbytes rfl

/-- Settles O26: SEND leaves the request frame in `tx`, the TXTAKEs emit it, and the last one is
followed by AWAIT or ERR_EOF. -/
theorem requestIsTransmittedInFull : Obligations.RequestIsTransmittedInFull := by
  unfold Obligations.RequestIsTransmittedInFull
  intro s rest hp h
  rw [runSteps_request hp h]
  rcases s.eos.eq_false_or_eq_true with he | he
  · rw [afterTake_of_nil_of_eos (s := requestEmitted rest s) rfl he]
    exact ⟨_, rfl, rfl, rfl, rfl, rfl, rfl, by simp [he], fun _ => ⟨rfl, rfl⟩⟩
  · rw [afterTake_of_nil (s := requestEmitted rest s) rfl he]
    exact ⟨_, rfl, rfl, rfl, rfl, rfl, rfl, fun _ => ⟨rfl, rfl⟩, by simp [he]⟩

end
end

section
/-! SUPPORT. The windows and the reserved addresses of the bus, and the fields of STATUS
(20_memory.md R52, R53; 10_state.md R30). -/

namespace Sys2Proof.Machine

variable {s : State} {a : BusAddr}

theorem page_toNat (a : BusAddr) : (a.extractLsb' 16 4).toNat = a.toNat / 0x10000 := by
  have := a.isLt
  simp [Nat.shiftRight_eq_div_pow]
  omega

theorem index_toNat (a : BusAddr) : (a.extractLsb' 0 16).toNat = a.toNat % 0x10000 := by
  simp

/-- Word `i` of page `n` is where the windows stand. -/
theorem page_index_ofNat {n i : Nat} (hn : n < 16) (hi : i < 0x10000) :
    ((BitVec.ofNat 20 (n * 0x10000 + i)).extractLsb' 16 4).toNat = n ∧
    ((BitVec.ofNat 20 (n * 0x10000 + i)).extractLsb' 0 16).toNat = i := by
  rw [page_toNat, index_toNat, BitVec.toNat_ofNat]
  omega

theorem windowWord_eq (b : List Byte) (i : Nat) :
    windowWord b i = ((b[i]?).getD 0#8).setWidth 16 := by
  rw [windowWord]
  cases b[i]? <;> rfl

/-- The buffer whose window is page `n`; pages 5 to 15 have none (R53). -/
theorem busRead_window (s : State) {i : Nat} (hi : i < 0x10000) :
    busRead s (BitVec.ofNat 20 (0x10000 + i)) = windowWord s.pl i ∧
    busRead s (BitVec.ofNat 20 (0x20000 + i)) = windowWord s.rx i ∧
    busRead s (BitVec.ofNat 20 (0x30000 + i)) = windowWord s.stage i ∧
    busRead s (BitVec.ofNat 20 (0x40000 + i)) = windowWord s.tx i := by
  obtain ⟨hp1, hi1⟩ := page_index_ofNat (n := 1) (by decide) hi
  obtain ⟨hp2, hi2⟩ := page_index_ofNat (n := 2) (by decide) hi
  obtain ⟨hp3, hi3⟩ := page_index_ofNat (n := 3) (by decide) hi
  obtain ⟨hp4, hi4⟩ := page_index_ofNat (n := 4) (by decide) hi
  refine ⟨?_, ?_, ?_, ?_⟩
  · simp only [busRead, hp1, hi1]
  · simp only [busRead, hp2, hi2]
  · simp only [busRead, hp3, hi3]
  · simp only [busRead, hp4, hi4]

theorem busRead_of_reserved_page (s : State) (h : 0x50000 ≤ a.toNat) : busRead s a = 0x0000#16 := by
  have hpage : 5 ≤ (a.extractLsb' 16 4).toNat := by rw [page_toNat]; omega
  obtain ⟨n, hn⟩ := Nat.exists_eq_add_of_le hpage
  rw [busRead, hn, Nat.add_comm]
  rfl

theorem readRegister_of_reserved (s : State) {n : Nat} (h : 10 ≤ n) :
    readRegister s n = 0x0000#16 := by
  obtain ⟨m, rfl⟩ := Nat.exists_eq_add_of_le h
  rw [Nat.add_comm]
  rfl

/-! ### The fields of STATUS -/

/-- A field at bit `k` of a register holds the field's bits from there on. -/
theorem field_getLsbD {n : Nat} (x : BitVec n) (k : Nat) {i : Nat} (hi : i < 16) :
    (x.setWidth 16 <<< k).getLsbD i = (decide (k ≤ i) && x.getLsbD (i - k)) := by
  rcases Nat.lt_or_ge i k with hlow | hhigh
  · simp [hlow, Nat.not_le.mpr hlow]
  · simp [hi, hhigh, Nat.not_lt.mpr hhigh]

/-- Each bit of STATUS is the bit of the field that stands there: RES, PHASE, the four flags, CAND
(R30). -/
theorem statusWord_getLsbD (s : State) {i : Nat} (hi : i < 16) :
    (statusWord s).getLsbD i =
      (s.res.code.getLsbD i || (decide (3 ≤ i) && s.phase.code.getLsbD (i - 3)) ||
        (decide (5 ≤ i) && (BitVec.ofBool s.eos).getLsbD (i - 5)) ||
        (decide (6 ≤ i) && (BitVec.ofBool s.ovf).getLsbD (i - 6)) ||
        (decide (7 ≤ i) && (BitVec.ofBool s.sovf).getLsbD (i - 7)) ||
        (decide (8 ≤ i) && (BitVec.ofBool s.ill).getLsbD (i - 8)) ||
        (decide (9 ≤ i) && s.cand.getLsbD (i - 9))) := by
  simp only [statusWord, flagWord, BitVec.getLsbD_or, field_getLsbD _ _ hi]
  simp [hi]

/-- A field is read back when its bits are. -/
theorem extractLsb'_eq_of_getLsbD {n : Nat} {v : Word} {k : Nat} {x : BitVec n}
    (h : ∀ i < n, v.getLsbD (k + i) = x.getLsbD i) : v.extractLsb' k n = x := by
  refine BitVec.eq_of_getLsbD_eq fun i hi => ?_
  rw [BitVec.getLsbD_extractLsb', h i hi, decide_eq_true hi, Bool.true_and]

theorem statusWord_res (s : State) : (statusWord s).extractLsb' 0 3 = s.res.code :=
  extractLsb'_eq_of_getLsbD fun i hi => by
    rw [statusWord_getLsbD s (by omega)]
    interval_cases i <;> simp

theorem statusWord_phase (s : State) : (statusWord s).extractLsb' 3 2 = s.phase.code :=
  extractLsb'_eq_of_getLsbD fun i hi => by
    rw [statusWord_getLsbD s (by omega)]
    interval_cases i <;> simp

theorem statusWord_cand (s : State) : (statusWord s).extractLsb' 9 2 = s.cand :=
  extractLsb'_eq_of_getLsbD fun i hi => by
    rw [statusWord_getLsbD s (by omega)]
    interval_cases i <;> simp

/-- CAND ends at bit 10. -/
theorem statusWord_reserved (s : State) : (statusWord s).extractLsb' 11 5 = 0#5 :=
  extractLsb'_eq_of_getLsbD fun i hi => by
    rw [statusWord_getLsbD s (by omega)]
    interval_cases i <;> simp

theorem statusWord_flags (s : State) :
    (statusWord s).getLsbD 5 = s.eos ∧ (statusWord s).getLsbD 6 = s.ovf ∧
    (statusWord s).getLsbD 7 = s.sovf ∧ (statusWord s).getLsbD 8 = s.ill := by
  refine ⟨?_, ?_, ?_, ?_⟩ <;> rw [statusWord_getLsbD s (by decide)] <;> simp

end Sys2Proof.Machine

section
open Sys2Proof Sys2Proof.Machine

/-- Settles O59: each field is read back bit by bit; the numbers of the codes are their
definitions. -/
theorem statusFieldsReadBack : Obligations.StatusFieldsReadBack := by
  unfold Obligations.StatusFieldsReadBack
  intro s
  obtain ⟨heos, hovf, hsovf, hill⟩ := statusWord_flags s
  have hres : ∀ c, s.res = c → (statusWord s).extractLsb' 0 3 = c.code :=
    fun c hc => hc ▸ statusWord_res s
  have hphase : ∀ ph, s.phase = ph → (statusWord s).extractLsb' 3 2 = ph.code :=
    fun ph hph => hph ▸ statusWord_phase s
  exact ⟨⟨statusWord_res s, statusWord_phase s, heos, hovf, hsovf, hill, statusWord_cand s,
      statusWord_reserved s⟩,
    ⟨hres _, hres _, hres _, hres _, hres _, hres _, hres _, hres _⟩,
    ⟨hphase _, hphase _, hphase _⟩⟩

/-- Settles O58: the registers by number, the windows by page, 0 at the reserved addresses. -/
theorem busAddressesReadAsTheMapSays : Obligations.BusAddressesReadAsTheMapSays := by
  unfold Obligations.BusAddressesReadAsTheMapSays
  intro s
  refine ⟨busRead_of_page_zero s (by decide), busRead_of_page_zero s (by decide),
    (busRead_of_page_zero s (by decide)).trans (cfgWord_eq s), busRead_of_page_zero s (by decide),
    busRead_of_page_zero s (by decide), busRead_of_page_zero s (by decide),
    busRead_of_page_zero s (by decide), busRead_of_page_zero s (by decide),
    busRead_of_page_zero s (by decide), busRead_of_page_zero s (by decide),
    fun a hlow hhigh => ?reserved, fun a => busRead_of_reserved_page s, fun i hi => ?windows⟩
  case reserved => rw [busRead_of_page_zero s hhigh, readRegister_of_reserved s hlow]
  case windows => simpa only [windowWord_eq] using busRead_window s hi

/-- Settles O60: every size of a state of the invariant, and of an extraction of its `rx`, is below
the modulus of its register. -/
theorem countsNeverWrap : Obligations.CountsNeverWrap := by
  unfold Obligations.CountsNeverWrap
  intro s hinv
  obtain ⟨⟨⟨_, hcap⟩, _, hstageCap⟩, hrx, hstage, htx, hpl, -, -, -⟩ := (inv_iff.mp hinv).1
  have hlength : ∀ b : List Byte, b.length < 65536 → (lengthWord b).toNat = b.length :=
    fun b hb => Nat.mod_eq_of_lt hb
  refine ⟨?rx, ?tx, ?stage, ?pl, fun f w => ?extraction⟩
  case rx => rw [busRead_of_page_zero s (by decide)]; exact hlength s.rx (by omega)
  case tx => rw [busRead_of_page_zero s (by decide)]; exact hlength s.tx (by omega)
  case stage => rw [busRead_of_page_zero s (by decide)]; exact hlength s.stage (by omega)
  case pl => rw [busRead_of_page_zero s (by decide)]; exact hlength s.pl (by omega)
  case extraction =>
    obtain ⟨hn, hk, hi, -, -, -⟩ := extract_bounds s.rx f w
    exact ⟨Nat.mod_eq_of_lt (by omega), Nat.mod_eq_of_lt (by omega), Nat.mod_eq_of_lt (by omega)⟩

end
end

section
/-! SUPPORT. A framed item in a buffer: the start byte, a payload, two CRC bytes and what follows,
read by position; and which candidates pass there (41_extractor.md R127 to R131, R138). -/

namespace Sys2Proof.Machine

variable {b pre pay tail : List Byte} {h l : Byte} {w : Bool} {p q s i : Nat}

/-! ### Positions -/

/-- No byte before the first occurrence of a value is that value. -/
theorem byteAt_ne_of_lt_first {v : Byte} {j : Nat} (hp : first b v = some p) (hj : j < p) :
    byteAt b j ≠ v := by
  have hlen := (first_some hp).1
  intro hv
  refine first_take hp ?_
  rw [← hv, byteAt, List.getD_eq_getElem _ _ (by omega)]
  exact List.mem_take_iff_getElem.mpr ⟨j, by omega, rfl⟩

theorem drop_eq_byteAt_cons (h : i < b.length) : b.drop i = byteAt b i :: b.drop (i + 1) := by
  rw [List.drop_eq_getElem_cons h, byteAt, List.getD_eq_getElem _ _ h]

theorem slice_append_middle (a m e : List Byte) {j : Nat} (hj : j + 1 = a.length + m.length) :
    slice (a ++ (m ++ e)) a.length j = m := by
  rw [slice, hj, List.take_length_add_append, List.take_left, List.drop_left]

/-- A candidate with room splits its buffer into what precedes the start byte, the payload, the two
CRC bytes, the byte at the stop position and the rest. -/
theorem eq_framed_of_candidate (hs : byteAt b s = startByte) (hroom : s + 3 ≤ q)
    (hq : q < b.length) :
    b = b.take s ++ startByte :: (slice b (s + 1) (q - 3) ++
      byteAt b (q - 2) :: byteAt b (q - 1) :: byteAt b q :: b.drop (q + 1)) := by
  have hpay : slice b (s + 1) (q - 3) ++ b.drop (q - 2) = b.drop (s + 1) := by
    rw [slice, List.drop_take, show q - 3 + 1 - (s + 1) = q - 2 - (s + 1) by omega,
      show b.drop (q - 2) = (b.drop (s + 1)).drop (q - 2 - (s + 1)) by
        rw [List.drop_drop]; congr 1; omega]
    exact List.take_append_drop _ _
  have hcrc : b.drop (q - 2) =
      byteAt b (q - 2) :: byteAt b (q - 1) :: byteAt b q :: b.drop (q + 1) := by
    rw [drop_eq_byteAt_cons (by omega), show q - 2 + 1 = q - 1 by omega,
      drop_eq_byteAt_cons (by omega), show q - 1 + 1 = q by omega, drop_eq_byteAt_cons hq]
  rw [← hcrc, hpay, ← hs, ← drop_eq_byteAt_cons (by omega), List.take_append_drop]

/-! ### The window -/

theorem responseWindow_append (a e : List Byte) (w : Bool) :
    responseWindow (a ++ e) w = responseWindow a w ++ e := by
  cases w <;> rfl

theorem candidateWindow_framed (pre pay tail : List Byte) (w : Bool) :
    candidateWindow (pre ++ startByte :: (pay ++ tail)) w pre.length (pre.length + pay.length + 3) =
      responseWindow pay w := by
  rw [candidateWindow, Nat.add_sub_cancel]
  cases w with
  | true => exact slice_append_middle pre (startByte :: pay) tail (by simp; omega)
  | false =>
    have h := slice_append_middle (pre ++ [startByte]) pay tail (j := pre.length + pay.length)
      (by simp; omega)
    simpa [responseWindow] using h

theorem accept_framed (pre pay tail : List Byte) (i : Nat) :
    Extraction.accept (pre ++ startByte :: (pay ++ tail)) pre.length
        (pre.length + pay.length + 3) i =
      ⟨.frame, pre.length + (pay.length + 4), pay, pre.length, i⟩ := by
  have h := candidateWindow_framed pre pay tail false
  simp only [candidateWindow, responseWindow, Bool.false_eq_true, if_false] at h
  rw [Extraction.accept, h]
  congr 1

/-- The candidate that ends a framed item passes when the two CRC bytes are the window's CRC. -/
theorem candidatePasses_framed (pre pay tail : List Byte) (h l : Byte) (w : Bool) :
    candidatePasses (pre ++ startByte :: (pay ++ h :: l :: tail)) w pre.length
        (pre.length + pay.length + 3) =
      (crc16 (responseWindow pay w) == bigEndian h l) := by
  have hassoc : pre ++ startByte :: (pay ++ h :: l :: tail) =
      (pre ++ startByte :: pay) ++ (h :: l :: tail) := by simp
  have hlen : (pre ++ startByte :: pay).length = pre.length + pay.length + 1 := by simp; omega
  have hh := byteAt_append_right (pre ++ startByte :: pay) (h :: l :: tail) 0
  have hl := byteAt_append_right (pre ++ startByte :: pay) (h :: l :: tail) 1
  rw [hlen, ← hassoc] at hh hl
  rw [candidatePasses, candidateWindow_framed, crcOk,
    show pre.length + pay.length + 3 - 2 = pre.length + pay.length + 1 + 0 by omega,
    show pre.length + pay.length + 3 - 1 = pre.length + pay.length + 1 + 1 by omega, hh, hl,
    decide_eq_true (by omega), Bool.true_and]
  rfl

theorem not_candidatePasses_of_short (h : q < s + 3) : candidatePasses b w s q = false := by
  rw [candidatePasses, decide_eq_false (by omega), Bool.false_and]

/-! ### The stored CRC -/

theorem highByte_bigEndian (x y : Byte) : highByte (bigEndian x y) = x := by
  ext j hj
  simp [highByte, bigEndian, hj, show 8 + j < 16 by omega]

theorem lowByte_bigEndian (x y : Byte) : lowByte (bigEndian x y) = y := by
  ext j hj
  simp [lowByte, bigEndian, hj, show j < 16 by omega]

/-- A sequence followed by the first byte of its own CRC leaves the second byte, moved up. -/
theorem crc16_append_own_high {d : List Byte} {x y : Byte} (hd : crc16 d = bigEndian x y) :
    crc16 (d ++ [x]) = y.setWidth 16 <<< 8 := by
  rw [crc16, crcFrom_append, ← crc16, hd, crcFrom_cons, crcFrom_nil]
  have h := crcStep_highByte (bigEndian x y)
  rwa [highByte_bigEndian, lowByte_bigEndian] at h

theorem crc16_append_own_bytes {d : List Byte} {x y : Byte} (hd : crc16 d = bigEndian x y) :
    crc16 (d ++ [x, y]) = 0x0000#16 := by
  have h := crcResidueIsZero d
  rwa [hd, highByte_bigEndian, lowByte_bigEndian] at h

/-! ### The candidates before the frame's own -/

/-- When the second CRC byte is a stop byte, the candidate that ends there fails: had it passed,
that byte would be 0. -/
theorem not_candidatePasses_at_low (pre tail : List Byte)
    (hcrc : crc16 (responseWindow pay w) = bigEndian h l) (hl : l = stopByte) :
    candidatePasses (pre ++ startByte :: (pay ++ h :: tail)) w pre.length
      (pre.length + pay.length + 2) = false := by
  rcases pay.eq_nil_or_concat' with rfl | ⟨pay, x, rfl⟩
  · exact not_candidatePasses_of_short (by simp)
  · have hpass := candidatePasses_framed pre pay tail x h w
    rw [List.append_assoc, List.length_append, List.length_singleton]
    refine hpass.trans (beq_eq_false_iff_ne.mpr fun hown => ?_)
    rw [responseWindow_append, crc16_append_own_high hown] at hcrc
    have hzero : (0#8 : Byte) = l := by
      rw [← lowByte_bigEndian h l, ← hcrc]
      ext j hj
      simp [lowByte, hj]
    rw [hl] at hzero
    exact absurd hzero (by decide)

/-- When the first CRC byte is a stop byte, the candidate that ends there fails: had it passed, the
CRC would be 0. -/
theorem not_candidatePasses_at_high (pre tail : List Byte)
    (hcrc : crc16 (responseWindow pay w) = bigEndian h l) (hh : h = stopByte) :
    candidatePasses (pre ++ startByte :: (pay ++ tail)) w pre.length
      (pre.length + pay.length + 1) = false := by
  rcases pay.eq_nil_or_concat' with rfl | ⟨pay, y, rfl⟩
  · exact not_candidatePasses_of_short (by simp)
  rcases pay.eq_nil_or_concat' with rfl | ⟨pay, x, rfl⟩
  · exact not_candidatePasses_of_short (by simp)
  · have hpass := candidatePasses_framed pre pay tail x y w
    rw [List.append_assoc, List.append_assoc, List.length_append, List.length_append,
      List.length_singleton, List.length_singleton]
    refine hpass.trans (beq_eq_false_iff_ne.mpr fun hown => ?_)
    rw [List.append_assoc, responseWindow_append] at hcrc
    have hzero : (0#8 : Byte) = h := by
      rw [← highByte_bigEndian h l, ← hcrc]
      exact congrArg highByte (crc16_append_own_bytes hown).symm
    rw [hh] at hzero
    exact absurd hzero (by decide)

/-! ### Where the searches stop -/

theorem acceptIndex_eq (h l : Byte) :
    acceptIndex h l = if h = stopByte then 2 else if l = stopByte then 1 else 0 := rfl

theorem acceptIndex_le_two (h l : Byte) : acceptIndex h l ≤ 2 := by
  rw [acceptIndex_eq]
  split_ifs <;> decide

/-- The first stop byte is one of the CRC bytes or the one after them, as `acceptIndex` counts
back. -/
theorem first_stop_framed (tail : List Byte) (h l : Byte) (hpre : stopByte ∉ pre)
    (hpay : stopByte ∉ pay) :
    first (pre ++ startByte :: (pay ++ h :: l :: stopByte :: tail)) stopByte =
      some (pre.length + pay.length + 3 - acceptIndex h l) := by
  have hitem : stopByte ∉ pre ++ startByte :: pay := by
    simp [hpre, hpay, show stopByte ≠ startByte by decide]
  have hassoc : pre ++ startByte :: (pay ++ h :: l :: stopByte :: tail) =
      (pre ++ startByte :: pay) ++ h :: l :: stopByte :: tail := by simp
  have hfirst : first (h :: l :: stopByte :: tail) stopByte = some (2 - acceptIndex h l) := by
    rw [acceptIndex_eq, first_cons, first_cons, first_cons, if_pos rfl]
    split_ifs <;> rfl
  have hle := acceptIndex_le_two h l
  rw [hassoc, first_append_of_notMem _ hitem, hfirst, Option.map_some, List.length_append,
    List.length_cons]
  congr 1
  omega

theorem first_start_framed (tail : List Byte) (hpre : startByte ∉ pre) (hp : pre.length < p) :
    first ((pre ++ startByte :: tail).take p) startByte = some pre.length :=
  first_take_of_lt (first_append_stop tail hpre) hp

/-! ### The extraction of a framed item -/

/-- Probing accepts at the first candidate that passes. -/
theorem probe_eq_accept {is : List Nat} {last : Nat} {final : Bool} (hsorted : is.Pairwise (· < ·))
    (hi : i ∈ is) (hin : p + i < b.length) (hstop : byteAt b (p + i) = stopByte)
    (hpass : candidatePasses b w s (p + i) = true)
    (hearlier : ∀ j < i, byteAt b (p + j) = stopByte → candidatePasses b w s (p + j) = false) :
    probe b final w s p is last = Extraction.accept b s (p + i) i := by
  induction is generalizing last with
  | nil => exact absurd hi List.not_mem_nil
  | cons j rest ih =>
    obtain ⟨hj, hrest⟩ := List.pairwise_cons.mp hsorted
    rcases List.mem_cons.mp hi with rfl | hmem
    · rw [probe_cons_of_lt hin, if_pos hstop, if_pos hpass]
    · have hlt := hj i hmem
      rw [probe_cons_of_lt (by omega), ih hrest hmem, ih hrest hmem]
      split_ifs with hstop' hpass'
      · simp [hearlier j hlt hstop'] at hpass'
      · rfl
      · rfl

/-- Where the first stop byte is not the frame's own, the candidates before it fail. -/
theorem not_candidatePasses_before_accept (pre tail : List Byte)
    (hcrc : crc16 (responseWindow pay w) = bigEndian h l) (hi : i < acceptIndex h l) {q : Nat}
    (hq : q + acceptIndex h l = pre.length + pay.length + 3 + i)
    (hstop : byteAt (pre ++ startByte :: (pay ++ h :: l :: stopByte :: tail)) q = stopByte) :
    candidatePasses (pre ++ startByte :: (pay ++ h :: l :: stopByte :: tail)) w pre.length q =
      false := by
  have hassoc : pre ++ startByte :: (pay ++ h :: l :: stopByte :: tail) =
      (pre ++ startByte :: pay) ++ h :: l :: stopByte :: tail := by simp
  have hlen : (pre ++ startByte :: pay).length = pre.length + pay.length + 1 := by simp; omega
  have hle := acceptIndex_le_two h l
  obtain rfl | rfl : q = pre.length + pay.length + 1 ∨ q = pre.length + pay.length + 2 := by omega
  · have hh := byteAt_append_right (pre ++ startByte :: pay) (h :: l :: stopByte :: tail) 0
    rw [hlen, ← hassoc, Nat.add_zero, hstop] at hh
    exact not_candidatePasses_at_high pre _ hcrc hh.symm
  · have hl := byteAt_append_right (pre ++ startByte :: pay) (h :: l :: stopByte :: tail) 1
    rw [hlen, ← hassoc, hstop] at hl
    exact not_candidatePasses_at_low pre _ hcrc hl.symm

/-- A framed item with a matching CRC is extracted, whatever follows it (R138, R139). -/
theorem extract_framed (tail : List Byte) (final : Bool) (hpre : stopByte ∉ pre)
    (hpre' : startByte ∉ pre) (hpay : stopByte ∉ pay)
    (hcrc : crc16 (responseWindow pay w) = bigEndian h l) :
    extract (pre ++ startByte :: (pay ++ h :: l :: stopByte :: tail)) final w =
      ⟨.frame, pre.length + (pay.length + 4), pay, pre.length, acceptIndex h l⟩ := by
  have hle := acceptIndex_le_two h l
  obtain ⟨p, hp⟩ : ∃ p, p + acceptIndex h l = pre.length + pay.length + 3 :=
    ⟨_, Nat.sub_add_cancel (by omega)⟩
  have hstop := first_stop_framed tail h l hpre hpay
  rw [show pre.length + pay.length + 3 - acceptIndex h l = p by omega] at hstop
  rw [extract_of_start hstop (first_start_framed _ hpre' (by omega))]
  have hown : byteAt (pre ++ startByte :: (pay ++ h :: l :: stopByte :: tail))
      (pre.length + pay.length + 3) = stopByte := by
    have hb := byteAt_append_right (pre ++ startByte :: pay) (h :: l :: stopByte :: tail) 2
    rw [List.append_assoc, List.cons_append,
      show (pre ++ startByte :: pay).length = pre.length + pay.length + 1 by simp; omega] at hb
    exact hb
  rw [probe_eq_accept (i := acceptIndex h l) (by decide) (by simp; omega)
    (by rw [hp]; simp; omega) (hp ▸ hown)
    (by rw [hp, candidatePasses_framed, hcrc, beq_self_eq_true])
    (fun j hj => not_candidatePasses_before_accept pre tail hcrc hj (by omega)), hp, accept_framed]

/-- The frames of R154, after garbage that neither search stops at (R139). -/
theorem extract_frameRsp (tail : List Byte) (final w : Bool) (hpre : stopByte ∉ pre)
    (hpre' : startByte ∉ pre) (hpay : stopByte ∉ pay) :
    extract (pre ++ (frameRsp pay w ++ tail)) final w =
      ⟨.frame, pre.length + (pay.length + 4), pay, pre.length,
        acceptIndex (highByte (crc16 (responseWindow pay w)))
          (lowByte (crc16 (responseWindow pay w)))⟩ := by
  have hframe := extract_framed tail final hpre hpre' hpay
    (bigEndian_highByte_lowByte (crc16 (responseWindow pay w))).symm
  simpa [frameRsp] using hframe

end Sys2Proof.Machine
end

section
/-! SUPPORT. The laws of the extractor: the frames it accepts, the frames it gives back, what it
makes of a corrupted one, and where its two modes differ (41_extractor.md R127 to R139). -/

namespace Sys2Proof.Machine

variable {b : List Byte} {w : Bool} {p q s i : Nat}

/-! ### Outcomes -/

theorem extract_of_out_incomplete {final : Bool} (h : (extract b final w).out = .incomplete) :
    extract b final w = Extraction.incomplete := by
  rcases extract_cases b final w with he | ⟨p, _, _, he⟩ | ⟨p, s, i, _, _, _, _, _, _, he⟩ |
    ⟨p, s, n, _, _, _, _, he⟩
  · exact he
  · rw [he] at h; cases h
  · rw [he] at h; cases h
  · rw [he] at h; cases h

/-- The candidate that passes is the one the CRC bytes call for: the bytes before it that are stop
bytes are the CRC bytes from the first stop byte on. -/
theorem eq_acceptIndex (hp : first b stopByte = some p) (hi : i ≤ 2) (hroom : 3 ≤ p + i) :
    i = acceptIndex (byteAt b (p + i - 2)) (byteAt b (p + i - 1)) := by
  obtain ⟨-, hstop⟩ := first_some hp
  rw [acceptIndex_eq]
  interval_cases i
  · rw [if_neg (byteAt_ne_of_lt_first hp (by omega)), if_neg (byteAt_ne_of_lt_first hp (by omega))]
  · rw [if_neg (byteAt_ne_of_lt_first hp (by omega)), Nat.add_sub_cancel,
      if_pos hstop]
  · rw [Nat.add_sub_cancel, if_pos hstop]

/-- The value found in the front of a buffer is the first of the whole buffer. -/
theorem first_of_first_take {v : Byte} (hs : first (b.take p) v = some s) : first b v = some s := by
  have h := first_append_some (b.drop p) hs
  rwa [List.take_append_drop] at h

theorem stop_notMem_slice (hp : first b stopByte = some p) {j : Nat} (hj : j < p) (i : Nat) :
    stopByte ∉ slice b i j := fun hmem =>
  first_take hp ((List.take_sublist_take_left hj).subset (List.mem_of_mem_drop hmem))

/-- The payload of a frame ends before the first stop byte, and no other outcome has one. -/
theorem stop_notMem_pay (b : List Byte) (final w : Bool) : stopByte ∉ (extract b final w).pay := by
  rcases extract_cases b final w with h | ⟨p, _, _, h⟩ | ⟨p, s, i, hp, hs, hi, _, _, _, h⟩ |
    ⟨p, s, n, _, _, _, _, h⟩ <;> rw [h]
  · exact List.not_mem_nil
  · exact List.not_mem_nil
  · have hsp := start_lt_stop hs
    exact stop_notMem_slice hp (by omega) _
  · exact List.not_mem_nil

/-- A candidate that passes ends a framed item whose CRC bytes are the CRC of its window (R127,
R129). -/
theorem framed_of_candidatePasses (hs : byteAt b s = startByte) (hq : q < b.length)
    (hstop : byteAt b q = stopByte) (hpass : candidatePasses b w s q = true) :
    b = b.take s ++ startByte :: (slice b (s + 1) (q - 3) ++
        byteAt b (q - 2) :: byteAt b (q - 1) :: stopByte :: b.drop (q + 1)) ∧
      s + (slice b (s + 1) (q - 3)).length + 3 = q ∧
      crc16 (responseWindow (slice b (s + 1) (q - 3)) w) =
        bigEndian (byteAt b (q - 2)) (byteAt b (q - 1)) := by
  have hroom : s + 3 ≤ q := by
    by_contra hshort
    simp [not_candidatePasses_of_short (Nat.not_le.mp hshort)] at hpass
  have hpre : (b.take s).length = s := List.length_take_of_le (by omega)
  have hlen : s + (slice b (s + 1) (q - 3)).length + 3 = q := by
    rw [slice_length b (by omega)]
    omega
  have hb := eq_framed_of_candidate hs hroom hq
  have hcrc := candidatePasses_framed (b.take s) (slice b (s + 1) (q - 3))
    (byteAt b q :: b.drop (q + 1)) (byteAt b (q - 2)) (byteAt b (q - 1)) w
  rw [← hb, hpre, hlen, hpass, eq_comm, beq_iff_eq] at hcrc
  rw [hstop] at hb
  exact ⟨hb, hlen, hcrc⟩

end Sys2Proof.Machine

section
open Sys2Proof Sys2Proof.Machine

/-- Settles O29: a candidate with room splits the buffer, and it passed because the CRC of that
window is the stored one. -/
theorem extractedFramesAreVerified : Obligations.ExtractedFramesAreVerified := by
  unfold Obligations.ExtractedFramesAreVerified
  intro b f w n k i pay hext
  have hpay := stop_notMem_pay b f w
  rw [hext] at hpay
  rcases extract_cases b f w with he | ⟨_, _, _, he⟩ | ⟨p, _, _, hp, hs, hi, hq, hstop, hpass, he⟩ |
    ⟨_, _, _, _, _, _, _, he⟩ <;> rw [he] at hext <;> cases hext
  have hkp := start_lt_stop hs
  have hk := first_of_first_take hs
  obtain ⟨hb, hlen, hcrc⟩ := framed_of_candidatePasses (first_some hk).2 hq hstop hpass
  exact ⟨b.take k, _, _, b.drop (p + i + 1), by simpa [startByte, stopByte] using hb,
    List.length_take_of_le (by omega), by omega, first_take hk,
    fun hmem => first_take hp ((List.take_sublist_take_left hkp.le).subset hmem), hpay, hcrc,
    eq_acceptIndex hp hi (by omega)⟩

/-- Settles O30: a frame whose payload has no stop byte is a framed item with a matching CRC; one
that has cannot be what a FRAME answers. -/
theorem responseFramesRoundTrip : Obligations.ResponseFramesRoundTrip := by
  unfold Obligations.ResponseFramesRoundTrip
  constructor
  · intro p e f w hp
    simpa using extract_frameRsp (pre := []) e f w List.not_mem_nil List.not_mem_nil hp
  · intro p e f w hp hpay
    exact stop_notMem_pay (frameRsp p w ++ e) f w (hpay.symm ▸ hp)

/-- Settles O31: an outcome other than INCOMPLETE would stay the same on the whole frame, which it
cannot remove. -/
theorem responsePrefixesAreIncomplete : Obligations.ResponsePrefixesAreIncomplete := by
  unfold Obligations.ResponsePrefixesAreIncomplete
  intro p w m hp hm
  apply extract_of_out_incomplete
  by_contra hout
  have hwhole := extract_append ((frameRsp p w).drop m) hout
  have hframe := responseFramesRoundTrip.1 p [] false w hp
  obtain ⟨hn, -⟩ := extract_bounds ((frameRsp p w).take m) false w
  rw [List.take_append_drop, ← List.append_nil (frameRsp p w), hframe, List.append_nil] at hwhole
  have hlen : p.length + 4 ≤ ((frameRsp p w).take m).length := by
    rw [← hwhole] at hn
    exact hn
  rw [List.length_take] at hlen
  omega

/-- Settles O32: garbage that neither search stops at is what precedes a framed item. -/
theorem resyncRecoversTheFrame : Obligations.ResyncRecoversTheFrame := by
  unfold Obligations.ResyncRecoversTheFrame
  intro g p f w hstop hstart hp
  simpa using extract_frameRsp [] f w hstop hstart hp

end
end

section
/-! SUPPORT. The extraction of a framed item whose CRC does not match, the two modes side by side,
and how far an ERR_CRC discards (41_extractor.md R122, R130, R134, R139). -/

namespace Sys2Proof.Machine

variable {b pre pay tail : List Byte} {h l : Byte} {w : Bool} {p s i n k last : Nat}

/-! ### A mismatching CRC -/

/-- Where the first stop byte is the frame's own and the CRC does not match, the extraction goes on
to the two bytes after the frame (R139). -/
theorem extract_framed_of_crc_ne (tail : List Byte) (final : Bool) (hpre : stopByte ∉ pre)
    (hpre' : startByte ∉ pre) (hpay : stopByte ∉ pay) (hh : h ≠ stopByte) (hl : l ≠ stopByte)
    (hcrc : crc16 (responseWindow pay w) ≠ bigEndian h l) :
    extract (pre ++ startByte :: (pay ++ h :: l :: stopByte :: tail)) final w =
      probe (pre ++ startByte :: (pay ++ h :: l :: stopByte :: tail)) final w pre.length
        (pre.length + pay.length + 3) [1, 2] (pre.length + pay.length + 3) := by
  have hindex : acceptIndex h l = 0 := by rw [acceptIndex_eq, if_neg hh, if_neg hl]
  have hstop := first_stop_framed tail h l hpre hpay
  rw [hindex, Nat.sub_zero] at hstop
  rw [extract_of_start hstop (first_start_framed _ hpre' (by omega)),
    probe_cons_of_lt (i := 0) (first_some hstop).1, candidatePasses_framed,
    beq_eq_false_iff_ne.mpr hcrc, if_neg Bool.false_ne_true, ite_self, Nat.add_zero]

/-- At the end of the buffer it is INCOMPLETE, or in final mode ERR_CRC over the whole buffer
(R130). -/
theorem extract_framed_of_crc_ne_at_end (final : Bool) (hpre : stopByte ∉ pre)
    (hpre' : startByte ∉ pre) (hpay : stopByte ∉ pay) (hh : h ≠ stopByte) (hl : l ≠ stopByte)
    (hcrc : crc16 (responseWindow pay w) ≠ bigEndian h l) :
    extract (pre ++ startByte :: (pay ++ [h, l, stopByte])) final w =
      probePastEnd (pre ++ startByte :: (pay ++ [h, l, stopByte])) final pre.length := by
  rw [extract_framed_of_crc_ne [] final hpre hpre' hpay hh hl hcrc,
    probe_cons_past_end (by simp; omega)]

/-- Before two bytes that are no stop bytes it is ERR_CRC over exactly the frame (R134). -/
theorem extract_framed_of_crc_ne_before {x y : Byte} (tail : List Byte) (final : Bool)
    (hpre : stopByte ∉ pre) (hpre' : startByte ∉ pre) (hpay : stopByte ∉ pay) (hh : h ≠ stopByte)
    (hl : l ≠ stopByte) (hcrc : crc16 (responseWindow pay w) ≠ bigEndian h l) (hx : x ≠ stopByte)
    (hy : y ≠ stopByte) :
    extract (pre ++ startByte :: (pay ++ h :: l :: stopByte :: x :: y :: tail)) final w =
      Extraction.crcError (pre.length + pay.length + 4) pre.length := by
  have hassoc : pre ++ startByte :: (pay ++ h :: l :: stopByte :: x :: y :: tail) =
      (pre ++ startByte :: (pay ++ [h, l, stopByte])) ++ x :: y :: tail := by simp
  have hlen : (pre ++ startByte :: (pay ++ [h, l, stopByte])).length =
      pre.length + pay.length + 3 + 1 := by simp; omega
  have hbx := byteAt_append_right (pre ++ startByte :: (pay ++ [h, l, stopByte])) (x :: y :: tail) 0
  have hby := byteAt_append_right (pre ++ startByte :: (pay ++ [h, l, stopByte])) (x :: y :: tail) 1
  rw [hlen, ← hassoc] at hbx hby
  rw [extract_framed_of_crc_ne _ final hpre hpre' hpay hh hl hcrc,
    probe_cons_of_lt (by simp; omega), if_neg (hbx.trans_ne hx),
    probe_cons_of_lt (by simp; omega), if_neg (hby.trans_ne hy)]
  rfl

/-- A flipped payload bit changes the window's CRC, under either convention. -/
theorem crc16_responseWindow_flipBit {j k : Nat} (hj : j < pay.length) (hk : k < 8) (w : Bool) :
    crc16 (responseWindow (flipBit pay j k) w) ≠ crc16 (responseWindow pay w) := by
  cases w with
  | false => exact crcIsLinearAndSeesEveryBit.2 pay j k hj hk
  | true => exact crcIsLinearAndSeesEveryBit.2 (startByte :: pay) (j + 1) k (Nat.succ_lt_succ hj) hk

/-! ### The two modes -/

/-- The modes differ only at a probe past the end, where non-final mode is INCOMPLETE (R130). -/
theorem probe_modes (b : List Byte) (w : Bool) (s p : Nat) (is : List Nat) (last : Nat) :
    (probe b true w s p is last = probe b false w s p is last ∧
      (probe b false w s p is last).out ≠ .incomplete) ∨
    (probe b false w s p is last = Extraction.incomplete ∧
      probe b true w s p is last = Extraction.crcError b.length s ∧
      ∃ i ∈ is, b.length ≤ p + i) := by
  induction is generalizing last with
  | nil => exact .inl ⟨rfl, ExtractOut.noConfusion⟩
  | cons i rest ih =>
    rcases Nat.lt_or_ge (p + i) b.length with hin | hend
    · have hlater : ∀ l, (probe b true w s p rest l = probe b false w s p rest l ∧
          (probe b false w s p rest l).out ≠ .incomplete) ∨
          (probe b false w s p rest l = Extraction.incomplete ∧
            probe b true w s p rest l = Extraction.crcError b.length s ∧
            ∃ j ∈ i :: rest, b.length ≤ p + j) := fun l => by
        refine (ih l).imp_right fun ⟨hf, ht, j, hj, hlen⟩ => ⟨hf, ht, j, by simp [hj], hlen⟩
      rw [probe_cons_of_lt hin, probe_cons_of_lt hin]
      split_ifs
      · exact .inl ⟨rfl, ExtractOut.noConfusion⟩
      · exact hlater _
      · exact hlater _
    · rw [probe_cons_past_end hend, probe_cons_past_end hend]
      exact .inr ⟨rfl, rfl, i, by simp, hend⟩

/-! ### The last stop byte examined -/

/-- An ERR_CRC of non-final mode examined every candidate, and removes the buffer through the last
stop byte among them (R134). -/
theorem probe_eq_crcError {count : Nat} (hlast : byteAt b last = stopByte) (hle : last ≤ p + i)
    (hbetween : ∀ q, last < q → q < p + i → byteAt b q ≠ stopByte)
    (h : probe b false w s p (List.range' i count) last = Extraction.crcError n k) :
    (count ≠ 0 → p + i + count ≤ b.length) ∧ last < n ∧ n ≤ max (last + 1) (p + i + count) ∧
      byteAt b (n - 1) = stopByte ∧ (∀ q, n ≤ q → q < p + i + count → byteAt b q ≠ stopByte) := by
  induction count generalizing i last with
  | zero =>
    cases h
    exact ⟨fun h => absurd rfl h, by omega, by omega, hlast, fun q => hbetween q⟩
  | succ count ih =>
    rw [List.range'_succ] at h
    have hin : p + i < b.length := by
      by_contra hend
      rw [probe_cons_past_end (Nat.not_lt.mp hend)] at h
      cases h
    obtain ⟨l, hll, hlp, hlstop, hlbetween, hl⟩ : ∃ l, last ≤ l ∧ l ≤ p + i ∧
        byteAt b l = stopByte ∧ (∀ q, l < q → q < p + (i + 1) → byteAt b q ≠ stopByte) ∧
        probe b false w s p (List.range' (i + 1) count) l = Extraction.crcError n k := by
      rw [probe_cons_of_lt hin] at h
      split_ifs at h with hstop hpass
      · cases h
      · exact ⟨p + i, hle, le_rfl, hstop, fun q hq hq' => absurd hq' (by omega), h⟩
      · refine ⟨last, le_rfl, hle, hlast, fun q hq hq' => ?_, h⟩
        rcases Nat.lt_succ_iff_lt_or_eq.mp (show q < p + i + 1 by omega) with hlt | rfl
        · exact hbetween q hq hlt
        · exact hstop
    obtain ⟨hlen, hlt, hn, hnstop, hafter⟩ := ih hlstop (by omega) hlbetween hl
    exact ⟨fun _ => by omega, by omega, by omega, hnstop, fun q hq hq' => hafter q hq (by omega)⟩

end Sys2Proof.Machine

section
open Sys2Proof Sys2Proof.Machine

/-- Settles O33: the flip changes the CRC of the window, so the frame's own candidate fails, and
the two after it are past the end or no stop bytes. -/
theorem corruptedFramesAreRejected : Obligations.CorruptedFramesAreRejected := by
  unfold Obligations.CorruptedFramesAreRejected
  rintro p bad w j k h l - hj hk hbad hstop hh hl hne hne'
  have hlen : bad.length = p.length := by simp [hbad, flipBit]
  have hcrc : crc16 (responseWindow bad w) ≠ bigEndian h l := by
    rw [hh, hl, bigEndian_highByte_lowByte, hbad]
    exact crc16_responseWindow_flipBit hj hk w
  have hend : ∀ final, extract (0x28#8 :: bad ++ [h, l, 0x0D#8]) final w =
      probePastEnd (0x28#8 :: bad ++ [h, l, 0x0D#8]) final 0 := fun final =>
    extract_framed_of_crc_ne_at_end (pre := []) final List.not_mem_nil List.not_mem_nil hstop hne
      hne' hcrc
  refine ⟨?final, hend false, fun x y e hx hy => ?followed⟩
  case final =>
    rw [hend true]
    simp [probePastEnd, Extraction.crcError, hlen]
  case followed =>
    have hbefore := extract_framed_of_crc_ne_before (pre := []) e false List.not_mem_nil
      List.not_mem_nil hstop hne hne' hcrc hx hy
    simpa [Extraction.crcError, hlen, startByte, stopByte] using hbefore

/-- Settles O36: the searches do not depend on the mode, and the probes differ only past the end. -/
theorem finalModeDiffersOnlyPastTheEnd : Obligations.FinalModeDiffersOnlyPastTheEnd := by
  unfold Obligations.FinalModeDiffersOnlyPastTheEnd
  intro b w
  constructor
  · intro hne
    cases hp : first b stopByte with
    | none => exact absurd (by rw [extract_of_no_stop hp, extract_of_no_stop hp]) hne
    | some p =>
      cases hs : first (b.take p) startByte with
      | none => exact absurd (by rw [extract_of_no_start hp hs, extract_of_no_start hp hs]) hne
      | some s =>
        rw [extract_of_start hp hs, extract_of_start hp hs] at hne ⊢
        rcases probe_modes b w s p [0, 1, 2] p with ⟨heq, -⟩ | ⟨hf, ht, i, hi, hlen⟩
        · exact absurd heq hne
        · have hi2 : i ≤ 2 := by
            simp only [List.mem_cons, List.not_mem_nil, or_false] at hi
            omega
          exact ⟨p, s, hp, first_of_first_take hs, start_lt_stop hs, by omega, hf, ht⟩
  · intro p k hp hk hkp hout
    rw [extract_of_start hp (first_take_of_lt hk hkp)] at hout ⊢
    rcases probe_modes b w k p [0, 1, 2] p with ⟨-, hne⟩ | ⟨-, ht, -⟩
    · exact absurd hout hne
    · exact ht

/-- Settles O37: the probes that give ERR_CRC examined every candidate, and the last stop byte
among them ends what is removed. -/
theorem crcErrorsDiscardThroughAStopByte : Obligations.CrcErrorsDiscardThroughAStopByte := by
  unfold Obligations.CrcErrorsDiscardThroughAStopByte
  intro b w n k i pay hext
  rcases extract_cases b false w with he | ⟨_, _, _, he⟩ | ⟨_, _, _, _, _, _, _, _, _, he⟩ |
    ⟨p, _, _, hp, hs, hpn, _, he⟩
  · cases he.symm.trans hext
  · cases he.symm.trans hext
  · cases he.symm.trans hext
  · cases he.symm.trans hext
    rw [extract_of_start hp hs] at he
    obtain ⟨hlen, -, hn, hstop, hafter⟩ := probe_eq_crcError (i := 0) (count := 3)
      (first_some hp).2 le_rfl (fun q hq hq' => absurd hq' (by omega)) he
    have hlen := hlen (by decide)
    refine ⟨p, hp, first_of_first_take hs, start_lt_stop hs, by omega, hpn, by omega, hstop,
      fun q hq hq' => hafter q hq (by omega), rfl, rfl⟩

end
end

section
/-! SUPPORT. Exchanges that wait: a response delivered byte by byte, the result an exchange ends
with, and the events that come in IDLE (43_accumulator.md R174, R190, R191; 70_reset_and_hazards.md
R260). -/

namespace Sys2Proof.Machine

variable {s t : State} {d : Byte} {i : Instr} {p : List Byte} {rest : List Input}

/-! ### Delivery -/

theorem step_of_rxb (he : s.eos = false) (h : s.pending = rxbIn d :: rest) :
    step s = .next (receive d { s with pending := rest }) :=
  (step_of_toInput (i := .rxb d) rfl h).trans (exec_rxb (s := { s with pending := rest }) d he)

/-- A byte that leaves the response incomplete is stored, and the exchange goes on waiting (R174).
-/
theorem step_of_rxb_incomplete (hp : s.phase = .await) (he : s.eos = false)
    (hroom : s.rx.length ≠ s.params.rxCap) (h : s.pending = rxbIn d :: rest)
    (hext : extract (s.rx ++ [d]) false s.win = Extraction.incomplete) :
    step s = .next { s with
      pending := rest, rx := s.rx ++ [d], res := .incomplete, consumed := 0#16, skip := 0#16
      cand := 0#2 } := by
  rw [step_of_rxb he h, receive_of_room_in_await (s := { s with pending := rest }) d hroom hp,
    autoExtract_eq (s := storeReceived d { s with pending := rest }) hp]
  simp only [storeReceived, hext]
  rw [← hp]
  rfl

/-- A byte that completes a frame ends the exchange with it (R174, R176). -/
theorem step_of_rxb_frame {n k i : Nat} (hp : s.phase = .await) (he : s.eos = false)
    (hroom : s.rx.length ≠ s.params.rxCap) (h : s.pending = rxbIn d :: rest)
    (hext : extract (s.rx ++ [d]) false s.win = ⟨.frame, n, p, k, i⟩) :
    step s = .next { s with
      pending := rest, rx := (s.rx ++ [d]).drop n, res := .frame, pl := p, phase := .idle
      consumed := BitVec.ofNat 16 n, skip := BitVec.ofNat 16 k, cand := BitVec.ofNat 2 i } := by
  rw [step_of_rxb he h, receive_of_room_in_await (s := { s with pending := rest }) d hroom hp,
    autoExtract_eq (s := storeReceived d { s with pending := rest }) hp]
  simp only [storeReceived, hext]
  rfl

/-- The state in which the response `p`, received in AWAIT from `s`, has ended the exchange. -/
def responseReceived (p : List Byte) (rest : List Input) (s : State) : State :=
  { s with
    pending := rest, phase := .idle, res := .frame, pl := p, rx := []
    consumed := BitVec.ofNat 16 (p.length + 4), skip := 0#16
    cand := BitVec.ofNat 2 (acceptIndex (highByte (crc16 (responseWindow p s.win)))
      (lowByte (crc16 (responseWindow p s.win)))) }

theorem frameRsp_ne_nil (p : List Byte) (w : Bool) : frameRsp p w ≠ [] := List.cons_ne_nil _ _

/-- Delivering what is missing of a response, byte by byte, ends the exchange with it (R138, R174).
-/
theorem runSteps_deliver {bytes : List Byte} (hp : s.phase = .await) (he : s.eos = false)
    (hstop : 0x0D#8 ∉ p) (hroom : p.length + 4 ≤ s.params.rxCap) (hne : bytes ≠ [])
    (hframe : s.rx ++ bytes = frameRsp p s.win) (h : s.pending = bytes.map rxbIn ++ rest) :
    runSteps bytes.length s = .next (responseReceived p rest s) := by
  induction bytes generalizing s with
  | nil => exact absurd rfl hne
  | cons d bytes ih =>
    have hlen : s.rx.length + (bytes.length + 1) = p.length + 4 := by
      rw [← frameRsp_length p s.win, ← hframe, List.length_append, List.length_cons]
    cases bytes with
    | nil =>
      have hext := responseFramesRoundTrip.1 p [] false s.win hstop
      rw [List.append_nil, ← hframe] at hext
      have hdrop : (s.rx ++ [d]).drop (p.length + 4) = [] :=
        List.drop_eq_nil_of_le (by simp; omega)
      have hstep := step_of_rxb_frame hp he (by omega) h hext
      rw [hdrop] at hstep
      exact runSteps_succ_of_step 0 hstep
    | cons d' bytes =>
      have hfront : s.rx ++ [d] = (frameRsp p s.win).take (s.rx.length + 1) := by
        rw [← hframe, List.take_length_add_append]
        rfl
      have hext := responsePrefixesAreIncomplete p s.win (s.rx.length + 1) hstop
        (by simp at hlen; omega)
      rw [← hfront] at hext
      rw [List.length_cons,
        runSteps_succ_of_step _ (step_of_rxb_incomplete hp he (by omega) h hext)]
      exact ih hp he hroom (by simp) (by simpa using hframe) rfl

/-! ### Results -/

/-- A result that is no frame stands beside an empty `pl` (R40). -/
theorem State.Sequenced.pl_eq_nil (hs : s.Sequenced) (hres : s.res ≠ .frame) : s.pl = [] := by
  by_contra hpl
  exact hres (hs.frame_of_pl hpl)

/-- An RXB that ends the exchange leaves RES = FRAME with the payload extracted, or one of the
extractor's two errors. -/
theorem step_rxb_result (hp : s.phase = .await) (hroom : s.rx.length ≠ s.params.rxCap)
    (hout : (extract (s.rx ++ [d]) false s.win).out ≠ .incomplete)
    (hpend : s.pending = rxbIn d :: rest) (h : step s = .next t)
    (hres : t.res = (extract (s.rx ++ [d]) false s.win).out.resCode) :
    (t.res = .frame ∧ t.pl = (extract (s.rx ++ [d]) false s.win).pay) ∨ t.res = .errFraming ∨
      t.res = .errCrc := by
  cases ho : (extract (s.rx ++ [d]) false s.win).out with
  | incomplete => exact absurd ho hout
  | frame =>
    obtain ⟨n, k, i, hext⟩ : ∃ n k i, extract (s.rx ++ [d]) false s.win =
        ⟨.frame, n, (extract (s.rx ++ [d]) false s.win).pay, k, i⟩ := ⟨_, _, _, by rw [← ho]⟩
    rw [step_of_rxb_frame hp (eos_of_step_rxb hpend h) hroom hpend hext] at h
    cases h
    exact .inl ⟨rfl, rfl⟩
  | errFraming => exact .inr (.inl (by rw [hres, ho]; rfl))
  | errCrc => exact .inr (.inr (by rw [hres, ho]; rfl))

/-! ### Transport events in IDLE -/

/-- `t` shows the result that `s` shows: `pl`, RES, the phase, and the counters except after an
overflow (R260; log 6). -/
structure KeepsResult (s t : State) : Prop where
  pl : t.pl = s.pl
  res : t.res = s.res
  phase : t.phase = s.phase
  counters : s.rx.length ≠ s.params.rxCap →
    t.consumed = s.consumed ∧ t.skip = s.skip ∧ t.cand = s.cand

theorem receive_keepsResult (d : Byte) (hp : s.phase ≠ .await) : KeepsResult s (receive d s) := by
  by_cases hfull : s.rx.length = s.params.rxCap
  · rw [receive_of_full d hfull, overflow_eq]
    exact ⟨rfl, if_neg hp, if_neg hp, fun hroom => absurd hfull hroom⟩
  · rw [receive_of_room d hfull hp]
    exact ⟨rfl, rfl, rfl, fun _ => ⟨rfl, rfl, rfl⟩⟩

/-- In IDLE a transport event keeps the result; that TXTAKE has no step there is the sequencer's
invariant. -/
theorem exec_transport_keepsResult (hs : s.Sequenced) (hp : s.phase = .idle)
    (ht : i.isTransport = true) (h : exec i s = .next t) : KeepsResult s t := by
  cases i with
  | rxb d => obtain ⟨-, rfl⟩ := execRxb_eq_next h; exact receive_keepsResult d (by simp [hp])
  | rxeos =>
    rw [exec_rxeos_of_ne_await (by simp [hp])] at h
    cases h
    exact ⟨rfl, rfl, rfl, fun _ => ⟨rfl, rfl, rfl⟩⟩
  | ioerr =>
    rw [exec_ioerr_of_idle hp] at h
    cases h
    exact ⟨rfl, rfl, rfl, fun _ => ⟨rfl, rfl, rfl⟩⟩
  | txtake =>
    rw [exec_txtake_of_nil (hs.tx_eq_nil (by simp [hp]))] at h
    cases h
  | _ => cases ht

end Sys2Proof.Machine

section
open Sys2Proof Sys2Proof.Machine

/-- Settles O46: by the rows of the table that lead to IDLE; `pl` is empty beside any result but
FRAME. -/
theorem exchangesEndWithOneResult : Obligations.ExchangesEndWithOneResult := by
  unfold Obligations.ExchangesEndWithOneResult
  intro s t hinv hp h hidle
  obtain ⟨-, hseq⟩ := inv_iff.mp hinv
  have hpl : t.res ≠ .frame → t.pl = [] := (step_sequenced hseq h).pl_eq_nil
  obtain ⟨inp, rest, hpend, hrow⟩ := step_tableRow hseq h (fun he => hp (he.symm.trans hidle))
  cases hrow with
  | sendInIdle hfrom => exact absurd hfrom hp
  | lastTxtake _ _ _ hto => cases hto.symm.trans hidle
  | lastTxtakeAfterEos _ _ _ _ hres => exact .inr (.inl ⟨by simp [hres], hpl (by simp [hres])⟩)
  | ioerrInTx _ _ hres => exact .inr (.inl ⟨by simp [hres], hpl (by simp [hres])⟩)
  | rxbCompletes d hfrom hroom hout _ hres =>
    rcases step_rxb_result (s := s) hfrom hroom hout hpend h hres with ⟨hframe, hpay⟩ | herr | herr
    · exact .inl ⟨hframe, d, rest, hpend, hpay⟩
    · exact .inr (.inl ⟨by simp [herr], hpl (by simp [herr])⟩)
    · exact .inr (.inl ⟨by simp [herr], hpl (by simp [herr])⟩)
  | rxbOverflows _ _ _ _ hres => exact .inr (.inl ⟨by simp [hres], hpl (by simp [hres])⟩)
  | rxeosInAwait _ _ hres => exact .inr (.inl ⟨by simp [hres], hpl (by simp [hres])⟩)
  | ioerrInAwait _ _ hres => exact .inr (.inl ⟨by simp [hres], hpl (by simp [hres])⟩)
  | release _ hres => exact .inr (.inr ⟨hres, hpl (by simp [hres]), rest, .inl hpend⟩)
  | reset _ hres => exact .inr (.inr ⟨hres, hpl (by simp [hres]), rest, .inr hpend⟩)

/-- Settles O47: the four events by `exec_transport_keepsResult`; any other word has no step. -/
theorem idleTransportEventsKeepTheResult : Obligations.IdleTransportEventsKeepTheResult := by
  unfold Obligations.IdleTransportEventsKeepTheResult
  intro s t w rest hinv hp hpend h
  obtain ⟨-, hseq⟩ := inv_iff.mp hinv
  cases hd : decodeTransport w with
  | none => rw [step_of_no_event hd hpend] at h; cases h
  | some i =>
    rw [step_of_input hpend, deliver_of_instr (inp := .port w) hd] at h
    obtain ⟨hpl, hres, hphase, hcounters⟩ := exec_transport_keepsResult
      (s := { s with pending := rest }) { hseq with } hp (encode_of_decodeTransport hd).1 h
    exact ⟨hpl, hres, hphase.trans hp, hcounters⟩

/-- Settles O49: the whole frame is what is missing of it when `rx` is empty. -/
theorem deliveredResponseEndsTheExchange : Obligations.DeliveredResponseEndsTheExchange := by
  unfold Obligations.DeliveredResponseEndsTheExchange
  intro s p rest hp he hrx hstop hroom h
  have hrun := runSteps_deliver (bytes := frameRsp p s.win) hp he hstop hroom
    (frameRsp_ne_nil p s.win) (by rw [hrx, List.nil_append]) h
  rwa [frameRsp_length] at hrun

end
end

section
/-! SUPPORT. The pairs of simultaneous events, each in both orders (60_exceptions.md R226). -/

namespace Sys2Proof.Machine

variable {s : State} {b d : Byte}

/-- A byte received outside AWAIT, with room and before end of stream, is stored (R174). -/
theorem exec_rxb_of_room (d : Byte) (he : s.eos = false) (hroom : s.rx.length ≠ s.params.rxCap)
    (hp : s.phase ≠ .await) : exec (.rxb d) s = .next (storeReceived d s) := by
  rw [exec_rxb d he, receive_of_room d hroom hp]

/-- A byte that completes a frame in AWAIT ends the exchange with FRAME (R176). -/
theorem receive_of_frame (hroom : s.rx.length ≠ s.params.rxCap) (hp : s.phase = .await)
    (hout : (extract (s.rx ++ [d]) false s.win).out = .frame) :
    (receive d s).phase = .idle ∧ (receive d s).res = .frame := by
  rw [receive_of_room_in_await d hroom hp, autoExtract_eq (s := storeReceived d s) hp]
  simp [hout, ExtractOut.resCode]

/-- The last TXTAKE and IOERR: before IOERR the byte is emitted, after it there is none to take. -/
theorem txtake_ioerr_orders (he : s.eos = false) (hp : s.phase = .tx) (htx : s.tx = [b]) :
    (∃ t u, exec .txtake s = .next t ∧ exec .ioerr t = .next u ∧
      u.emitted = s.emitted ++ [b] ∧ u.res = .errIo) ∧
    (∃ t, exec .ioerr s = .next t ∧ t.emitted = s.emitted ∧ t.res = .errIo ∧
      exec .txtake t = .fault .txtakeWhileTxEmpty) := by
  have htake := exec_txtake_of_cons htx
  rw [afterTake_of_nil (s := emitFront b [] s) rfl he] at htake
  exact ⟨⟨_, _, htake, exec_ioerr_of_ne_idle (by simp), rfl, rfl⟩,
    ⟨_, exec_ioerr_of_ne_idle (by simp [hp]), rfl, rfl, exec_txtake_of_nil rfl⟩⟩

/-- The RXB that completes a frame and RXEOS: after RXEOS the transport delivers no byte. -/
theorem rxb_rxeos_orders (he : s.eos = false) (hroom : s.rx.length ≠ s.params.rxCap)
    (hp : s.phase = .await) (hout : (extract (s.rx ++ [d]) false s.win).out = .frame) :
    (∃ t u, exec (.rxb d) s = .next t ∧ exec .rxeos t = .next u ∧
      u = { t with eos := true } ∧ u.res = .frame) ∧
    (∃ t, exec .rxeos s = .next t ∧ t.res = .errEof ∧ exec (.rxb d) t = .fault .rxbAfterEos) := by
  obtain ⟨hphase, hres⟩ := receive_of_frame hroom hp hout
  exact ⟨⟨_, _, exec_rxb d he, exec_rxeos_of_ne_await (by simp [hphase]), rfl, hres⟩,
    ⟨_, exec_rxeos_of_await hp, rfl, exec_rxb_of_eos d rfl⟩⟩

/-- The RXB that completes a frame and IOERR: after IOERR the byte is only stored. -/
theorem rxb_ioerr_orders (he : s.eos = false) (hroom : s.rx.length ≠ s.params.rxCap)
    (hp : s.phase = .await) (hout : (extract (s.rx ++ [d]) false s.win).out = .frame) :
    (∃ t, exec (.rxb d) s = .next t ∧ t.res = .frame ∧ exec .ioerr t = .next t) ∧
    (∃ t u, exec .ioerr s = .next t ∧ exec (.rxb d) t = .next u ∧
      u = { t with rx := s.rx ++ [d] } ∧ u.res = .errIo) := by
  obtain ⟨hphase, hres⟩ := receive_of_frame hroom hp hout
  have hstored := exec_rxb_of_room (s := abandonExchange s) d he hroom (by simp)
  exact ⟨⟨_, exec_rxb d he, hres, exec_ioerr_of_idle hphase⟩,
    ⟨_, _, exec_ioerr_of_ne_idle (by simp [hp]), hstored, rfl, rfl⟩⟩

/-- RXB and SEND in IDLE reach one state in both orders. -/
theorem rxb_send_orders (he : s.eos = false) (hroom : s.rx.length ≠ s.params.rxCap)
    (hp : s.phase = .idle) :
    ∃ t u, exec (.rxb d) s = .next t ∧ exec .send t = .next u ∧
      ∃ t', exec .send s = .next t' ∧ exec (.rxb d) t' = .next u :=
  ⟨_, _, exec_rxb_of_room d he hroom (by simp [hp]),
    exec_send_of_idle (s := storeReceived d s) hp, _, exec_send_of_idle hp,
    exec_rxb_of_room (s := startExchange s) d he hroom (by simp)⟩

/-- RXB and DECODE in IDLE: the byte is extracted with the buffer, or stored behind what DECODE
left. -/
theorem rxb_decode_orders (he : s.eos = false) (hroom : s.rx.length < s.params.rxCap)
    (hp : s.phase = .idle) :
    (∃ t u, exec (.rxb d) s = .next t ∧ exec .decode t = .next u ∧
      u.res = (extract (s.rx ++ [d]) false s.win).out.resCode ∧
      u.pl = (extract (s.rx ++ [d]) false s.win).pay ∧
      u.rx = (s.rx ++ [d]).drop (extract (s.rx ++ [d]) false s.win).n) ∧
    (∃ t u, exec .decode s = .next t ∧ exec (.rxb d) t = .next u ∧
      u.res = (extract s.rx false s.win).out.resCode ∧
      u.pl = (extract s.rx false s.win).pay ∧
      u.rx = s.rx.drop (extract s.rx false s.win).n ++ [d]) := by
  have hdecode := exec_decode_of_idle (s := storeReceived d s) hp
  rw [extractOnce_eq] at hdecode
  have hdecode' := exec_decode_of_idle hp
  rw [extractOnce_eq] at hdecode'
  refine ⟨⟨_, _, exec_rxb_of_room d he hroom.ne (by simp [hp]), hdecode, rfl, rfl, rfl⟩,
    ⟨_, _, hdecode', exec_rxb_of_room d he ?room ?idle, rfl, rfl, rfl⟩⟩
  case room =>
    change (s.rx.drop _).length ≠ s.params.rxCap
    rw [List.length_drop]
    omega
  case idle => simp [hp]

/-- RXB and RELEASE in any phase: the byte is forfeited, or it is kept. -/
theorem rxb_release_orders (he : s.eos = false) (hcap : 1 ≤ s.params.rxCap) :
    (∃ t u, exec (.rxb d) s = .next t ∧ exec .release t = .next u ∧ u.rx = []) ∧
    (∃ t u, exec .release s = .next t ∧ exec (.rxb d) t = .next u ∧ u.rx = [d]) :=
  ⟨⟨_, _, exec_rxb d he, rfl, rfl⟩,
    ⟨_, _, rfl, exec_rxb_of_room (s := forfeit s) d rfl (Nat.ne_of_lt hcap) (by simp), rfl⟩⟩

end Sys2Proof.Machine

section
open Sys2Proof Sys2Proof.Machine

/-- Settles O50: the six pairs, each by what its events do in the state that the other one left. -/
theorem orderOfSimultaneousEvents : Obligations.OrderOfSimultaneousEvents := by
  unfold Obligations.OrderOfSimultaneousEvents
  intro s b d he hroom
  refine ⟨txtake_ioerr_orders he, fun hp hout => ?completing, rxb_send_orders he hroom,
    fun hp hlt => rxb_decode_orders he hlt hp, rxb_release_orders he⟩
  case completing =>
    obtain ⟨hrxbFirst, hrxeosFirst⟩ := rxb_rxeos_orders he hroom hp hout
    obtain ⟨hrxbFirst', hioerrFirst⟩ := rxb_ioerr_orders he hroom hp hout
    exact ⟨hrxbFirst, hrxeosFirst, hrxbFirst', hioerrFirst⟩

end
end
